-- ==== Sys2Proof/Word.lean ====
section
/-! DEFINITION. The widths of 00_scope R6 and R7: REG_WIDTH = ADDR_WIDTH = 32 (D5, D6), characters of 8 bits (D15),
command words of 48 bits (30_encoding R90) and 4-bit codes (R97). Every quantity of the block is unsigned. -/

namespace Sys2Proof

/-- A register value, a bus address, a timeout or a time sample: 32 bits (R6, R62, R240). -/
abbrev Word := BitVec 32

/-- A character (D15). -/
abbrev Byte := BitVec 8

/-- A command word `CW` (R90). -/
abbrev CommandWord := BitVec 48

/-- An operation code (R92) or an Error Status code (R97). -/
abbrev Code := BitVec 4

/-- `ALL_ONES`, the "all-ones mask" (R6, D5). -/
abbrev Word.allOnes : Word := 0xFFFFFFFF#32

end Sys2Proof
end

