-- ==== Sys2Proof/Machine/Vocabulary.lean ====
section
/-! DEFINITION. The named things of the spec: contexts, peripheral registers, Error Status, logical device states,
micro-states, continuations, and the events a run is observed by. -/

namespace Sys2Proof.Machine

/-- The two sequencers of the block, and the context tag of a command (10_state R20, 30_encoding R91). -/
inductive Ctx where
  | main
  | irq
  deriving DecidableEq, Repr

/-- The twelve registers of the peripheral, by the spec's short names (10_state R28). -/
inductive Reg where
  | data | rsrEcr | flag | ibrd | fbrd | lcr | ctrl | ifls | imsc | ris | mis | icr
  deriving DecidableEq, Repr

/-- The address map of 20_memory R61: a register's offset from `UART_BASE`. -/
def Reg.offset : Reg → Word
  | .data => 0x00#32
  | .rsrEcr => 0x04#32
  | .flag => 0x18#32
  | .ibrd => 0x24#32
  | .fbrd => 0x28#32
  | .lcr => 0x2C#32
  | .ctrl => 0x30#32
  | .ifls => 0x34#32
  | .imsc => 0x38#32
  | .ris => 0x3C#32
  | .mis => 0x40#32
  | .icr => 0x44#32

/-- The Error Status, "a closed enumeration" (30_encoding R97). `busy` is a member no operation returns (60 R225). -/
inductive ErrorStatus where
  | ok | initFailed | timeout | invalidParam | busy | overrun | framing | parity | noise | hardwareError
  deriving DecidableEq, Repr

/-- The 4-bit encoding of an Error Status in `RESULT` (R97, D4). -/
def ErrorStatus.code : ErrorStatus → Code
  | .ok => 0#4
  | .initFailed => 1#4
  | .timeout => 2#4
  | .invalidParam => 3#4
  | .busy => 4#4
  | .overrun => 5#4
  | .framing => 6#4
  | .parity => 7#4
  | .noise => 8#4
  | .hardwareError => 9#4

/-- Reading a code back: the codes 10 to 15 stand for nothing (R97, 93 U10). -/
def ErrorStatus.ofCode (v : Code) : Option ErrorStatus :=
  match v.toNat with
  | 0 => some .ok
  | 1 => some .initFailed
  | 2 => some .timeout
  | 3 => some .invalidParam
  | 4 => some .busy
  | 5 => some .overrun
  | 6 => some .framing
  | 7 => some .parity
  | 8 => some .noise
  | 9 => some .hardwareError
  | _ => none

/-- The hardware-category errors: the five codes produced from a read of `RSR_ECR` (60 R231, D30). -/
def ErrorStatus.hardwareCategory : ErrorStatus → Bool
  | .overrun => true
  | .framing => true
  | .parity => true
  | .noise => true
  | .hardwareError => true
  | .ok => false
  | .initFailed => false
  | .timeout => false
  | .invalidParam => false
  | .busy => false

/-- `dev_state`, the logical device state (10_state R21). -/
inductive DevState where
  | disabled
  | configuring
  | enabled
  deriving DecidableEq, Repr

/-- The micro-states of 40_common R126: the event the context performs next. -/
inductive Phase where
  | idle
  | iWCtrl0 | iWIcr | iWIbrd | iWFbrd | iWLcr | iWCtrlEn | iRCtrl
  | tStart | tRFlag | tNow | tRRsr | tWData
  | gStart | gRFlag | gNow | gRRsr | gRData
  | mRImsc | mWImsc
  | eWEcr
  | qRRsr
  | hRMis | hWIcr
  | done (code : ErrorStatus)
  | hDone
  deriving DecidableEq, Repr

/-- `kont`: which caller a shared sequence returns to (10_state R26, 40_common R126). -/
inductive Kont where
  | sendChar
  | getChar
  | sendString
  | handler
  deriving DecidableEq, Repr

/-- `IMSC_UPDATE`: the two forms of the Interrupt-Mask update (00_scope R6, D17). -/
inductive ImscUpdate where
  | rmw
  | overwrite
  deriving DecidableEq, Repr

/-- What the history records (20_memory R83): a bus read with its answer, a bus write, a time sample. -/
inductive Event where
  | read (c : Ctx) (addr value : Word)
  | write (c : Ctx) (addr value : Word)
  | now (c : Ctx) (value : Word)
  deriving DecidableEq, Repr

/-- The sequencing register and scratch registers of one context (10_state R22, R24, R26). -/
structure Seq where
  /-- `busy`: an operation of this context is in progress. -/
  busy : Bool
  /-- `phase`: the micro-state. -/
  phase : Phase
  /-- `kont`; it holds no value while the context is idle (R26). -/
  kont : Option Kont
  /-- `t_start`: the time sample taken when the current poll began. -/
  tStart : Word
  /-- `tmp`: the value the most recent bus read returned. -/
  tmp : Word
  deriving DecidableEq, Repr

/-- The operand latches of the main context (10_state R22), but for `m.busy`. -/
structure Latches where
  op : Code
  p : Bool
  c : Byte
  arg : Word
  str : List Byte
  idx : Nat
  deriving DecidableEq, Repr

/-- `op_cfg`, the Operating Configuration (10_state R25). -/
structure OpCfg where
  baudRate : Word
  divisor : Nat
  ibrd : Word
  fbrd : Word
  deriving DecidableEq, Repr

/-- What the result port carries at a completion: `RESULT`, and `OUT_CHAR` where it is valid (30_encoding R98). -/
structure Completion where
  code : Code
  outChar : Option Byte
  deriving DecidableEq, Repr

/-- Who moves at an event boundary with `q.busy = 0`: the main context, or a dispatch happens (60 R234, R236). -/
inductive Turn where
  | main
  | dispatch
  deriving DecidableEq, Repr

end Sys2Proof.Machine
end

