-- ==== Sys2Proof/Syntax.lean ====
section
/-! DEFINITION. The abstract syntax of 30_encoding R92: the nine operations of the block and their operands. The bit
layout of a command is transport only (D2) and stands in Decode.lean. -/

namespace Sys2Proof

/-- The operations, one constructor per row of the opcode table, in the table's order. -/
inductive Instr where
  /-- `INIT baud_rate` (41_init R140). -/
  | init (baud : Word)
  /-- `SEND_CHAR c, timeout_ms` (42_send_char R160). -/
  | sendChar (c : Byte) (timeoutMs : Word)
  /-- `GET_CHAR dest, timeout_ms`; `p` is the present bit, false for the null destination (43_get_char R170, R171). -/
  | getChar (p : Bool) (timeoutMs : Word)
  /-- `SEND_STRING str, timeout_ms`; `p` is false for the null string, which carries no payload (44 R180, R96). -/
  | sendString (p : Bool) (str : List Byte) (timeoutMs : Word)
  /-- `ENABLE_INTERRUPTS` (45 R190). -/
  | enableInterrupts
  /-- `DISABLE_INTERRUPTS` (45 R191). -/
  | disableInterrupts
  /-- `CLEAR_ERRORS` (46 R200). -/
  | clearErrors
  /-- `GET_ERROR_STATUS` (46 R201). -/
  | getErrorStatus
  /-- `IRQ_HANDLER`, on the irq context only (47 R210, R91). -/
  | irqHandler
  deriving DecidableEq, Repr

end Sys2Proof
end

