-- ==== Sys2Proof/Decode.lean ====
section
/-! DEFINITION. The decoder and the encoder of command words (30_encoding R90 to R96). A command is a 48-bit word, a
context tag and, for `SEND_STRING`, a payload. -/

namespace Sys2Proof

open Sys2Proof.Machine (Ctx)

/-- A command as it is presented to the block: the tag beside the word, and the payload (R90, R91, R96). -/
structure Offer where
  ctx : Ctx
  cw : CommandWord
  payload : List Byte
  deriving DecidableEq, Repr

/-- Why a command word spells no operation (R93, R94). -/
inductive DecodeError where
  /-- `op` is `0x0` or `0xA` to `0xF`. -/
  | reservedOp
  /-- `z` is not zero. -/
  | zNotZero
  /-- `p` is set in a command that has no present bit. -/
  | pNotZero
  /-- `c` is not zero in a command other than `SEND_CHAR`. -/
  | cNotZero
  /-- `arg` is not zero in a command with no operands. -/
  | argNotZero
  /-- The context tag is not the row's (R91). -/
  | wrongContext
  deriving DecidableEq, Repr

/-- The decoder's answer: an operation, or "invalid" with the reason (R94). -/
inductive Decoded where
  | ok (i : Instr)
  | invalid (why : DecodeError)
  deriving DecidableEq, Repr

/-- `CW[47:44]` (R90). -/
def opField (cw : CommandWord) : BitVec 4 := cw.extractLsb' 44 4

/-- `CW[43:41]` (R90). -/
def zField (cw : CommandWord) : BitVec 3 := cw.extractLsb' 41 3

/-- `CW[40]` (R90). -/
def pField (cw : CommandWord) : BitVec 1 := cw.extractLsb' 40 1

/-- `CW[39:32]` (R90). -/
def cField (cw : CommandWord) : Byte := cw.extractLsb' 32 8

/-- `CW[31:0]` (R90). -/
def argField (cw : CommandWord) : Word := cw.extractLsb' 0 32

/-- `c` must be zero in every command but `SEND_CHAR` (R93). -/
def requireNoC (cw : CommandWord) (i : Instr) : Decoded :=
  if cField cw = 0#8 then .ok i else .invalid .cNotZero

/-- `p` and `c` must be zero (R93). -/
def requireNoPC (cw : CommandWord) (i : Instr) : Decoded :=
  if pField cw = 0#1 then requireNoC cw i else .invalid .pNotZero

/-- `p`, `c` and `arg` must be zero in the commands with no operands (R93). -/
def requireNoOperands (cw : CommandWord) (i : Instr) : Decoded :=
  if argField cw = 0#32 then requireNoPC cw i else .invalid .argNotZero

/-- The context whose sequencer executes an operation (R91, R92). -/
def Instr.ctx : Instr → Ctx
  | .init _ => .main
  | .sendChar _ _ => .main
  | .getChar _ _ => .main
  | .sendString _ _ _ => .main
  | .enableInterrupts => .main
  | .disableInterrupts => .main
  | .clearErrors => .main
  | .getErrorStatus => .main
  | .irqHandler => .irq

/-- The operation a word and its payload spell, whatever the tag (R92, R93). A payload is looked at for `SEND_STRING`
with `p = 1` only (R90, R96). -/
def decodeWord (cw : CommandWord) (payload : List Byte) : Decoded :=
  if zField cw = 0#3 then
    match (opField cw).toNat with
    | 1 => requireNoPC cw (.init (argField cw))
    | 2 => if pField cw = 0#1 then .ok (.sendChar (cField cw) (argField cw)) else .invalid .pNotZero
    | 3 => requireNoC cw (.getChar (pField cw == 1#1) (argField cw))
    | 4 => requireNoC cw (.sendString (pField cw == 1#1) (if pField cw = 1#1 then payload else []) (argField cw))
    | 5 => requireNoOperands cw .enableInterrupts
    | 6 => requireNoOperands cw .disableInterrupts
    | 7 => requireNoOperands cw .clearErrors
    | 8 => requireNoOperands cw .getErrorStatus
    | 9 => requireNoOperands cw .irqHandler
    | _ => .invalid .reservedOp
  else .invalid .zNotZero

/-- The decoder (R92, R94): total, stateless (R95), and refusing a word under the wrong tag (R91). -/
def decode (o : Offer) : Decoded :=
  match decodeWord o.cw o.payload with
  | .invalid e => .invalid e
  | .ok i => if o.ctx = i.ctx then .ok i else .invalid .wrongContext

/-- The operation code of R92. -/
def Instr.op : Instr → Code
  | .init _ => 1#4
  | .sendChar _ _ => 2#4
  | .getChar _ _ => 3#4
  | .sendString _ _ _ => 4#4
  | .enableInterrupts => 5#4
  | .disableInterrupts => 6#4
  | .clearErrors => 7#4
  | .getErrorStatus => 8#4
  | .irqHandler => 9#4

/-- The present bit of an operation (R90). -/
def Instr.p : Instr → Bool
  | .init _ => false
  | .sendChar _ _ => false
  | .getChar p _ => p
  | .sendString p _ _ => p
  | .enableInterrupts => false
  | .disableInterrupts => false
  | .clearErrors => false
  | .getErrorStatus => false
  | .irqHandler => false

/-- The character field of an operation (R90). -/
def Instr.c : Instr → Byte
  | .init _ => 0#8
  | .sendChar c _ => c
  | .getChar _ _ => 0#8
  | .sendString _ _ _ => 0#8
  | .enableInterrupts => 0#8
  | .disableInterrupts => 0#8
  | .clearErrors => 0#8
  | .getErrorStatus => 0#8
  | .irqHandler => 0#8

/-- The `arg` field of an operation (R90). -/
def Instr.arg : Instr → Word
  | .init baud => baud
  | .sendChar _ t => t
  | .getChar _ t => t
  | .sendString _ _ t => t
  | .enableInterrupts => 0#32
  | .disableInterrupts => 0#32
  | .clearErrors => 0#32
  | .getErrorStatus => 0#32
  | .irqHandler => 0#32

/-- The payload of an operation: the bytes of a string that is present (R96). -/
def Instr.payload : Instr → List Byte
  | .init _ => []
  | .sendChar _ _ => []
  | .getChar _ _ => []
  | .sendString p str _ => if p then str else []
  | .enableInterrupts => []
  | .disableInterrupts => []
  | .clearErrors => []
  | .getErrorStatus => []
  | .irqHandler => []

/-- A command word with these fields, `z` zero (R90, R93). -/
def assemble (op : Code) (p : Bool) (c : Byte) (arg : Word) : CommandWord :=
  op.setWidth 48 <<< 44 ||| (BitVec.ofBool p).setWidth 48 <<< 40 ||| c.setWidth 48 <<< 32 ||| arg.setWidth 48

/-- The command word of an operation (R90, R92, R93). -/
def encode (i : Instr) : CommandWord := assemble i.op i.p i.c i.arg

/-- An operation as it is presented at the command port (R90, R91, R96). -/
def Instr.offer (i : Instr) : Offer := { ctx := i.ctx, cw := encode i, payload := i.payload }

/-- A word of the opcode table as it is presented: the tag is the row's (R91), the payload is empty. -/
def tableOffer (nbits w : Nat) : Offer :=
  let cw : CommandWord := BitVec.ofNat 48 (w % 2 ^ nbits)
  { ctx := if opField cw = 9#4 then .irq else .main, cw := cw, payload := [] }

/-- The instruction the decoder reads from the bits `w`, numbered as the opcode table numbers them: a command is one
48-bit word, so the table's numbering is the word's own (R90). -/
def decodeTableWord (nbits w : Nat) : Option Instr :=
  match decode (tableOffer nbits w) with
  | .ok i => some i
  | .invalid _ => none

end Sys2Proof
end

