-- ==== Sys2Proof/Config.lean ====
section
/-! DEFINITION. The configuration record `Cfg` of 00_scope R6, and the free values: what the spec leaves to the
platform, to the peripheral, to the time source and to the interrupt dispatch. None of the opaque constants has a body,
so no proof can see a value of it. -/

namespace Sys2Proof

/-- `Cfg` (R6). The widths and `ALL_ONES` stand in Word.lean; `RSR_ANY` is `Cfg.rsrAny`. -/
structure Cfg where
  /-- `UART_BASE`, the address of the register block. -/
  uartBase : Word
  /-- `CLOCK_HZ`, the fixed reference clock, a natural number. -/
  clockHz : Nat
  /-- `CTRL_EN`, `CTRL_TXE`, `CTRL_RXE`: the Control register's masks. -/
  ctrlEn : Word
  ctrlTxe : Word
  ctrlRxe : Word
  /-- `FLAG_RXFE`, `FLAG_TXFF`: the Flag register's masks. -/
  flagRxfe : Word
  flagTxff : Word
  /-- `RSR_FE`, `RSR_PE`, `RSR_BE`, `RSR_OE`: the Receive-Status register's masks. -/
  rsrFe : Word
  rsrPe : Word
  rsrBe : Word
  rsrOe : Word
  /-- `INT_RX`: the receive-interrupt mask. -/
  intRx : Word
  /-- `LCR_8N1`: the value written to Line-Control. -/
  lcr8n1 : Word
  /-- `DEFAULT_TIMEOUT_MS`: the handler's timeout. -/
  defaultTimeoutMs : Word
  /-- `IMSC_UPDATE`. -/
  imscUpdate : Machine.ImscUpdate
  deriving DecidableEq, Repr

/-- `RSR_ANY` (R6). -/
def Cfg.rsrAny (k : Cfg) : Word := k.rsrOe ||| k.rsrFe ||| k.rsrPe ||| k.rsrBe

namespace Config

/-- OPEN (D6): `UART_BASE` is four times this number, which R6's constraints bound by `(2^32 - 0x48) / 4`.
DESIGN CHOICE, safe: nothing is known of it but those constraints. -/
opaque uartBaseQuarter : Fin 1073741807

/-- OPEN (D7): `CLOCK_HZ` less one; R6 bounds `CLOCK_HZ` to `1 .. 2^32 - 1`. DESIGN CHOICE, safe. -/
opaque clockHzLessOne : Fin 4294967295

/-- OPEN (D16): `DEFAULT_TIMEOUT_MS`. DESIGN CHOICE, safe. -/
opaque defaultTimeoutMs : Word

/-- The peripheral's answer to a bus read for which no answer is queued (20_memory R84): any value, of the whole
history, the reading context and the address. DESIGN CHOICE, safe. -/
opaque freeRead : List Machine.Event → Machine.Ctx → Word → Word

/-- The time source's answer for which none is queued (60 R240, R84). DESIGN CHOICE, safe. -/
opaque freeNow : List Machine.Event → Machine.Ctx → Word

/-- Whether the platform dispatches the handler at an event boundary for which no turn is queued (60 R234, R236): of
the history and of the number of such turns drawn before. DESIGN CHOICE, safe. -/
opaque freeDispatch : List Machine.Event → Nat → Bool

end Config
end Sys2Proof
end

