-- ==== Sys2Proof/Machine/Platform.lean ====
section
/-! DEFINITION. The configuration the machine has at reset: the default values of 00_scope R6's table, and the OPEN
parameters free within R6's constraints. Statements quantify over every configuration; this one is the reset state's. -/

namespace Sys2Proof.Machine

/-- `Cfg` at reset. The bit positions and `LCR_8N1` are PRESUMED (the ARM PrimeCell PL011 layout, D8, D9, 93 G2 to
G6); `IMSC_UPDATE = rmw` is the spec's default (D17); the OPEN parameters are opaque (D6, D7, D16). -/
def platformCfg : Cfg where
  uartBase := BitVec.ofNat 32 (4 * Config.uartBaseQuarter.val)
  clockHz := Config.clockHzLessOne.val + 1
  ctrlEn := 0x00000001#32
  ctrlTxe := 0x00000100#32
  ctrlRxe := 0x00000200#32
  flagRxfe := 0x00000010#32
  flagTxff := 0x00000020#32
  rsrFe := 0x00000001#32
  rsrPe := 0x00000002#32
  rsrBe := 0x00000004#32
  rsrOe := 0x00000008#32
  intRx := 0x00000010#32
  lcr8n1 := 0x00000060#32
  defaultTimeoutMs := Config.defaultTimeoutMs
  imscUpdate := .rmw

end Sys2Proof.Machine
end

