-- ==== Sys2Proof/Machine/State.lean ====
section
/-! DEFINITION. The state of the block (10_state R20 to R27), what a run is observed by (20_memory R83, 30_encoding R98),
the configuration, and the environment's pending inputs. Faults, refusals, and the state after reset (70 R260). -/

namespace Sys2Proof.Machine

/-- The whole state. The peripheral's registers are not in it: the block holds none of them (R27, R42). -/
structure State where
  /-- `Cfg` (00_scope R6): fixed for the machine; no event writes it. -/
  cfg : Cfg
  /-- `dev_state` (R21): a ghost, written by `INIT` alone, read by nothing. -/
  devState : DevState
  /-- `op_cfg` (R25): a ghost; no value until `INIT` sets one. -/
  opCfg : Option OpCfg
  /-- The main context's sequencing and scratch registers (R22 `m.busy`, R24, R26). -/
  m : Seq
  /-- The irq context's (R24, R26). -/
  q : Seq
  /-- The operand latches of the main context (R22). -/
  latch : Latches
  /-- `q.char` (R24). -/
  qChar : Byte
  /-- `RESULT` (R23, R97): no value until first written, by the spec's own words. -/
  result : Option Code
  /-- `OUT_CHAR` (R23): no value until first written. -/
  outChar : Option Byte
  /-- The event history, oldest first (20_memory R83). The block never reads it. -/
  history : List Event
  /-- What the result port has carried, oldest first (30_encoding R98, 00_scope R9(c)). -/
  results : List Completion
  /-- The peripheral's answers to the next bus reads; past its end `Config.freeRead` answers (R84). -/
  busAnswers : List Word
  /-- The time source's next answers; past its end `Config.freeNow` answers (R84, R240). -/
  clockAnswers : List Word
  /-- Who moves at the next event boundaries with `q.busy = 0`; past its end `Config.freeDispatch` says (R234, R236). -/
  turns : List Turn
  /-- How many turns `Config.freeDispatch` has given: the model's own counter. -/
  turnCount : Nat
  /-- The commands the caller presents, in order (00_scope R11, 30_encoding R90). -/
  port : List Offer
  deriving DecidableEq, Repr

/-- Why a step stops with a fault. -/
inductive Fault where
  /-- A context is busy with a `phase`, `kont` or `op` that do not belong together, so that R126 gives it no event.
  Raised by the meanings of the operations and by the step; no run from reset reaches it. Safe: the machine stops. -/
  | sequencer
  /-- `RESULT` is read before it was first written: the spec makes it a fault (R23, D24, 93 U11). Raised by the caller's read `State.readResult`, by no
  operation. Safe. -/
  | resultUnwritten
  /-- `OUT_CHAR` is read before it was first written: a fault likewise (R23, D24, 93 U11). Raised by the caller's read `State.readOutChar`, by
  no operation. Safe. -/
  | outCharUnwritten
  deriving DecidableEq, Repr

/-- Why a step is refused. -/
inductive Refusal where
  /-- An instruction that has no meaning in the model; no arm of `exec` answers it. Safe. -/
  | notModelled (mnemonic : String)
  /-- The command at the port spells no operation, for the reason named (30_encoding R94, 93 U8): "the machine refuses
  it (it errs toward unprovable)". Raised by the step. Safe. -/
  | spellsNoOperation (why : DecodeError)
  deriving DecidableEq, Repr

/-- A context at reset: not busy, `IDLE`, no continuation (R26, R260). The scratch registers have no reset value in the
spec; zero is the model's (DESIGN CHOICE, unsafe, log entry 9). -/
def Seq.reset : Seq := { busy := false, phase := .idle, kont := none, tStart := 0#32, tmp := 0#32 }

/-- The state right after reset (70 R260): `dev_state` Disabled, both contexts idle, `RESULT`, `OUT_CHAR` and `op_cfg`
without value, nothing recorded, nothing presented. The latches and `q.char` have no reset value in the spec; zero is the
model's (DESIGN CHOICE, unsafe, log entry 9). -/
def State.reset : State where
  cfg := platformCfg
  devState := .disabled
  opCfg := none
  m := Seq.reset
  q := Seq.reset
  latch := { op := 0#4, p := false, c := 0#8, arg := 0#32, str := [], idx := 0 }
  qChar := 0#8
  result := none
  outChar := none
  history := []
  results := []
  busAnswers := []
  clockAnswers := []
  turns := []
  turnCount := 0
  port := []

end Sys2Proof.Machine
end

