-- ==== Sys2Proof/Machine/Flags.lean ====
section
/-! DEFINITION. Every bit test, status decode and piece of arithmetic of the block: pure functions of values
(40_common R121, R122, R124; 45 R190, R191). -/

namespace Sys2Proof.Machine

/-- "a bit of M is set in v": `(v & M) != 0` (00_scope R7). -/
def anySet (v mask : Word) : Bool := (v &&& mask) != 0#32

/-- `DecodeRxStatus` (40_common R122): Overrun, then Framing, then Parity, then Break/Noise. -/
def decodeRxStatus (k : Cfg) (s : Word) : ErrorStatus :=
  if anySet s k.rsrOe then .overrun
  else if anySet s k.rsrFe then .framing
  else if anySet s k.rsrPe then .parity
  else if anySet s k.rsrBe then .noise
  else .ok

/-- The deadline test of a poll: elapsed time modulo `2^32`, strictly greater than the budget (R121, R124(c)). -/
def deadlinePassed (now tStart budget : Word) : Bool := decide (budget.toNat < (now - tStart).toNat)

/-- `D = CLOCK_HZ div (16 * baud_rate)` over the natural numbers (R124(a), 41_init R142). -/
def divisor (k : Cfg) (baud : Word) : Nat := k.clockHz / (16 * baud.toNat)

/-- The value written to `IBRD`: `zext_32(D >> 6)` (R142, 10_state R32). -/
def ibrdValue (k : Cfg) (baud : Word) : Word := BitVec.ofNat 32 (divisor k baud >>> 6)

/-- The value written to `FBRD`: `D & 0x3F` (R142, 10_state R33). -/
def fbrdValue (k : Cfg) (baud : Word) : Word := BitVec.ofNat 32 (divisor k baud &&& 0x3F)

/-- The Operating Configuration `INIT` records (41_init R140 step 4, 10_state R25). -/
def opCfgOf (k : Cfg) (baud : Word) : OpCfg where
  baudRate := baud
  divisor := divisor k baud
  ibrd := ibrdValue k baud
  fbrd := fbrdValue k baud

/-- The enabling value of `INIT` step 6: the three bits in one write (R140). -/
def ctrlEnabling (k : Cfg) : Word := k.ctrlEn ||| k.ctrlTxe ||| k.ctrlRxe

/-- `d[7:0]` (R124(e)). -/
def lowByte (d : Word) : Byte := d.extractLsb' 0 8

/-- The value `ENABLE_INTERRUPTS` writes to `IMSC`, where `v` is the value read under `rmw` (45 R190). -/
def imscEnabling (k : Cfg) (v : Word) : Word :=
  match k.imscUpdate with
  | .rmw => v ||| k.intRx
  | .overwrite => k.intRx

/-- The value `DISABLE_INTERRUPTS` writes to `IMSC` (45 R191). -/
def imscDisabling (k : Cfg) (v : Word) : Word :=
  match k.imscUpdate with
  | .rmw => v &&& ~~~k.intRx
  | .overwrite => 0#32

end Sys2Proof.Machine
end

