-- ==== Sys2Proof/Machine/Ops.lean ====
section
/-! DEFINITION. The named operations over the state: the registers of a context, the bus and the time port (20_memory
R65, R84; 60 R240), the acceptance and the completion of an operation (40_common R120), the entry to and the return
from the interrupt handler (60 R237, R238), and the caller's reads of the result registers (10_state R23). -/

namespace Sys2Proof.Machine

/-- The registers of a context (10_state R24, R26). -/
def State.seq (c : Ctx) (s : State) : Seq :=
  match c with
  | .main => s.m
  | .irq => s.q

/-- Replace the registers of a context. -/
def State.setSeq (c : Ctx) (x : Seq) (s : State) : State :=
  match c with
  | .main => { s with m := x }
  | .irq => { s with q := x }

/-- `phase <- p` (00_scope R8, 10_state R26). -/
def goto (c : Ctx) (p : Phase) (s : State) : State := s.setSeq c { s.seq c with phase := p }

/-- `kont <- k` (40_common R126). -/
def setKont (c : Ctx) (k : Kont) (s : State) : State := s.setSeq c { s.seq c with kont := some k }

/-- The bus address of a register: `UART_BASE + off` (20_memory R60). -/
def Cfg.addr (k : Cfg) (r : Reg) : Word := k.uartBase + r.offset

/-- The oracle's answer to a bus read by a context at this moment (R84): the next queued answer, else any value. -/
def busAnswer (c : Ctx) (r : Reg) (s : State) : Word :=
  match s.busAnswers with
  | v :: _ => v
  | [] => Config.freeRead s.history c (Cfg.addr s.cfg r)

/-- The oracle's answer to `Now()` at this moment (60 R240, R84). -/
def clockAnswer (c : Ctx) (s : State) : Word :=
  match s.clockAnswers with
  | v :: _ => v
  | [] => Config.freeNow s.history c

/-- `tmp <- RegRead(r)`: exactly one bus transaction, answered by the oracle (R65, R66, 10_state R24). -/
def readReg (c : Ctx) (r : Reg) (s : State) : State :=
  let v := busAnswer c r s
  { s.setSeq c { s.seq c with tmp := v } with
    history := s.history ++ [.read c (Cfg.addr s.cfg r) v], busAnswers := s.busAnswers.tail }

/-- `RegWrite(r, v)`: exactly one bus transaction (R65, R66). -/
def writeReg (c : Ctx) (r : Reg) (v : Word) (s : State) : State :=
  { s with history := s.history ++ [.write c (Cfg.addr s.cfg r) v] }

/-- One `Now()` sample; its value is `clockAnswer` of the state before (60 R240). -/
def sampleNow (c : Ctx) (s : State) : State :=
  { s with history := s.history ++ [.now c (clockAnswer c s)], clockAnswers := s.clockAnswers.tail }

/-- `t_start <- Now()` (40_common R121). -/
def startClock (c : Ctx) (s : State) : State :=
  let t := sampleNow c s
  t.setSeq c { t.seq c with tStart := clockAnswer c s }

/-- Accept a command on the main context: its fields and payload are copied into the latches, `m.idx <- 0`,
`m.busy <- 1` (40_common R120(1), 10_state R22). -/
def accept (i : Instr) (s : State) : State :=
  { s with
    latch := { op := i.op, p := i.p, c := i.c, arg := i.arg, str := i.payload, idx := 0 }
    m := { s.m with busy := true } }

/-- What the result port carries at a completion: `OUT_CHAR` is valid only when the operation was `GET_CHAR` and the
code is Ok (30_encoding R98). -/
def completionOf (code : ErrorStatus) (s : State) : Completion where
  code := code.code
  outChar := if s.latch.op = 3#4 ∧ code = .ok then s.outChar else none

/-- Complete the operation of the main context: `RESULT <- code`, `m.busy <- 0`, `m.phase <- IDLE` (R120(4)). `kont`
holds no value while the context is idle (10_state R26). -/
def complete (code : ErrorStatus) (s : State) : State :=
  { s with
    result := some code.code
    results := s.results ++ [completionOf code s]
    m := { s.m with busy := false, phase := .idle, kont := none } }

/-- Entry to the handler (60 R237): `q.busy <- 1`, `q.phase <- H_R_MIS`; nothing is saved and nothing of the main
context is touched. -/
def enterHandler (s : State) : State := { s with q := { s.q with busy := true, phase := .hRMis } }

/-- Return from the handler (60 R238): `q.busy <- 0`, `q.phase <- IDLE`; there is nothing to restore, and no result. -/
def leaveHandler (s : State) : State := { s with q := { s.q with busy := false, phase := .idle, kont := none } }

/-- The caller's read of `RESULT`: "a model must make a read of an unwritten `RESULT` ... a fault" (10_state R23). -/
def State.readResult (s : State) : Except Fault Code :=
  match s.result with
  | some v => .ok v
  | none => .error .resultUnwritten

/-- The caller's read of `OUT_CHAR` (10_state R23). -/
def State.readOutChar (s : State) : Except Fault Byte :=
  match s.outChar with
  | some b => .ok b
  | none => .error .outCharUnwritten

/-- Who moves next, where `q.busy = 0` (60 R234, R236): the queued turn, else free. -/
def nextTurn (s : State) : Turn :=
  match s.turns with
  | t :: _ => t
  | [] => if Config.freeDispatch s.history s.turnCount then .dispatch else .main

/-- The turn is taken. -/
def takeTurn (s : State) : State :=
  match s.turns with
  | _ :: ts => { s with turns := ts }
  | [] => { s with turnCount := s.turnCount + 1 }

end Sys2Proof.Machine
end

