-- ==== Sys2Proof/Machine/Operands.lean ====
section
/-! DEFINITION. Every operand form: the operation the latches hold (10_state R22), the budget and the character of the
running sequence (40_common R126), and the shape every main-context meaning has (R120). -/

namespace Sys2Proof.Machine

/-- The operation in progress on the main context, read from the latches alone (10_state R22). For `SEND_STRING` the
latch `m.c` is the byte being sent, not an operand. -/
def running (s : State) : Option Instr :=
  match s.latch.op.toNat with
  | 1 => some (.init s.latch.arg)
  | 2 => some (.sendChar s.latch.c s.latch.arg)
  | 3 => some (.getChar s.latch.p s.latch.arg)
  | 4 => some (.sendString s.latch.p (if s.latch.p then s.latch.str else []) s.latch.arg)
  | 5 => some .enableInterrupts
  | 6 => some .disableInterrupts
  | 7 => some .clearErrors
  | 8 => some .getErrorStatus
  | _ => none

/-- `T`, the budget of the running sequence: `m.arg` in the main context, `DEFAULT_TIMEOUT_MS` in the irq context
(R126). -/
def budget (c : Ctx) (s : State) : Word :=
  match c with
  | .main => s.latch.arg
  | .irq => s.cfg.defaultTimeoutMs

/-- `ch`, the byte being sent: `m.c` or `q.char` (R126). -/
def txChar (c : Ctx) (s : State) : Byte :=
  match c with
  | .main => s.latch.c
  | .irq => s.qChar

/-- ONE EVENT of an operation of the main context (40_common R120, R126). While the handler runs the main context makes
no event (60 R236). An idle context accepts the command: the latches are filled and `start` says where the sequence
begins. A context busy with this very operation performs the sequence's next event. A command offered while another
operation is in progress is not accepted (D21): no event. Where R126 gives no event the sequencer is stuck. -/
def mainEvent (i : Instr) (start : State → State) (event : State → Option State) (s : State) :
    Host.Outcome State Fault Refusal :=
  if s.q.busy then .next s
  else if s.m.busy then
    if running s = some i then
      match event s with
      | some t => .next t
      | none => .fault .sequencer
    else .next s
  else .next (start (accept i s))

end Sys2Proof.Machine
end

