-- ==== Sys2Proof/Machine/ErrorQuery.lean ====
section
/-! DEFINITION. `CLEAR_ERRORS` and `GET_ERROR_STATUS` (46_error_status R200 to R203). -/

namespace Sys2Proof.Machine

/-- The one write of `CLEAR_ERRORS`, and the completion (R200). -/
def clearErrorsEvent (s : State) : Option State :=
  match s.m.phase with
  | .eWEcr => some (goto .main (.done .ok) (writeReg .main .rsrEcr Word.allOnes s))
  | .done code => some (complete code s)
  | _ => none

/-- One event of `CLEAR_ERRORS` (R200). -/
def execClearErrors (s : State) : Host.Outcome State Fault Refusal :=
  mainEvent .clearErrors (goto .main .eWEcr) clearErrorsEvent s

/-- The one read of `GET_ERROR_STATUS`, decoded, and the completion (R201). -/
def getErrorStatusEvent (s : State) : Option State :=
  match s.m.phase with
  | .qRRsr =>
    let t := readReg .main .rsrEcr s
    some (goto .main (.done (decodeRxStatus s.cfg t.m.tmp)) t)
  | .done code => some (complete code s)
  | _ => none

/-- One event of `GET_ERROR_STATUS` (R201). -/
def execGetErrorStatus (s : State) : Host.Outcome State Fault Refusal :=
  mainEvent .getErrorStatus (goto .main .qRRsr) getErrorStatusEvent s

end Sys2Proof.Machine
end

