-- ==== Sys2Proof/Machine/Sequences.lean ====
section
/-! DEFINITION. The two sequences the operations share, event by event (40_common R121, R126): `SendCharSeq`
(42_send_char R160) and `GetCharSeq` (43_get_char R170), on either context, and what follows them (`TxEnd`, `RxEnd`). -/

namespace Sys2Proof.Machine

/-- `TxStart`: a time sample first where there is a deadline (R126, R121). -/
def txStart (c : Ctx) (s : State) : State :=
  if budget c s = 0#32 then goto c .tRFlag s else goto c .tStart s

/-- `RxStart` (R126). -/
def rxStart (c : Ctx) (s : State) : State :=
  if budget c s = 0#32 then goto c .gRFlag s else goto c .gStart s

/-- After a character of `SEND_STRING` (R126 `TxEnd`, 44 R180): a failure is propagated unchanged; after the last
character the operation is done; else the next byte is latched and its own poll begins (R182). -/
def stringNext (code : ErrorStatus) (s : State) : Option State :=
  if code = .ok then
    let t : State := { s with latch := { s.latch with idx := s.latch.idx + 1 } }
    if t.latch.idx = t.latch.str.length then some (goto .main (.done .ok) t)
    else
      match t.latch.str[t.latch.idx]? with
      | some b => some (txStart .main { t with latch := { t.latch with c := b } })
      | none => none
  else some (goto .main (.done code) s)

/-- `TxEnd(code)` (R126): the handler discards the code and goes on to clear the interrupt (47 R210). -/
def txEnd (c : Ctx) (code : ErrorStatus) (s : State) : Option State :=
  match c with
  | .main =>
    match s.m.kont with
    | some .sendChar => some (goto .main (.done code) s)
    | some .sendString => stringNext code s
    | some .getChar => none
    | some .handler => none
    | none => none
  | .irq =>
    match s.q.kont with
    | some .handler => some (goto .irq .hWIcr s)
    | some .sendChar => none
    | some .sendString => none
    | some .getChar => none
    | none => none

/-- `RxEnd(code)` (R126): on Ok the byte `tmp[7:0]` goes to `OUT_CHAR`, or to `q.char` and is echoed. -/
def rxEnd (c : Ctx) (code : ErrorStatus) (s : State) : Option State :=
  match c with
  | .main =>
    match s.m.kont with
    | some .getChar =>
      if code = .ok then some (goto .main (.done .ok) { s with outChar := some (lowByte s.m.tmp) })
      else some (goto .main (.done code) s)
    | some .sendChar => none
    | some .sendString => none
    | some .handler => none
    | none => none
  | .irq =>
    match s.q.kont with
    | some .handler =>
      if code = .ok then some (txStart .irq { s with qChar := lowByte s.q.tmp })
      else some (goto .irq .hWIcr s)
    | some .sendChar => none
    | some .sendString => none
    | some .getChar => none
    | none => none

/-- `T_START` and `G_START`: `t_start <- Now()`. -/
def pollStart (c : Ctx) (flagPhase : Phase) (s : State) : State := goto c flagPhase (startClock c s)

/-- `T_R_FLAG` and `G_R_FLAG`: one read of `FLAG`; ready when the bit of `mask` reads clear, else the deadline test
where there is one, else the next read (R121). -/
def pollFlag (c : Ctx) (mask : Word) (ready retry deadline : Phase) (s : State) : State :=
  let t := readReg c .flag s
  if anySet (t.seq c).tmp mask then
    if budget c s = 0#32 then goto c retry t else goto c deadline t
  else goto c ready t

/-- The events of `SendCharSeq` (R126): none of them, for a micro-state of another sequence. -/
def sendEvent (c : Ctx) (s : State) : Option State :=
  match (s.seq c).phase with
  | .tStart => some (pollStart c .tRFlag s)
  | .tRFlag => some (pollFlag c s.cfg.flagTxff .tRRsr .tRFlag .tNow s)
  | .tNow =>
    if deadlinePassed (clockAnswer c s) (s.seq c).tStart (budget c s) then txEnd c .timeout (sampleNow c s)
    else some (goto c .tRFlag (sampleNow c s))
  | .tRRsr =>
    let t := readReg c .rsrEcr s
    if anySet (t.seq c).tmp s.cfg.rsrAny then txEnd c .hardwareError t else some (goto c .tWData t)
  | .tWData => txEnd c .ok (writeReg c .data ((txChar c s).setWidth 32) s)
  | _ => none

/-- The events of `GetCharSeq` (R126). -/
def getEvent (c : Ctx) (s : State) : Option State :=
  match (s.seq c).phase with
  | .gStart => some (pollStart c .gRFlag s)
  | .gRFlag => some (pollFlag c s.cfg.flagRxfe .gRRsr .gRFlag .gNow s)
  | .gNow =>
    if deadlinePassed (clockAnswer c s) (s.seq c).tStart (budget c s) then rxEnd c .timeout (sampleNow c s)
    else some (goto c .gRFlag (sampleNow c s))
  | .gRRsr =>
    let t := readReg c .rsrEcr s
    let e := decodeRxStatus s.cfg (t.seq c).tmp
    if e = .ok then some (goto c .gRData t) else rxEnd c e t
  | .gRData => rxEnd c .ok (readReg c .data s)
  | _ => none

end Sys2Proof.Machine
end

