-- ==== Sys2Proof/Machine/GetChar.lean ====
section
/-! DEFINITION. `GET_CHAR` (43_get_char R170 to R173). -/

namespace Sys2Proof.Machine

/-- The acceptance: a null destination is rejected "without touching hardware" (R170, R171); else
`kont <- K_GET_CHAR`, `RxStart` (40_common R126). -/
def getCharStart (s : State) : State :=
  if s.latch.p then rxStart .main (setKont .main .getChar s) else goto .main (.done .invalidParam) s

/-- The events of `GetCharSeq` and the completion. -/
def getCharEvent (s : State) : Option State :=
  match s.m.phase with
  | .done code => some (complete code s)
  | _ => getEvent .main s

/-- One event of `GET_CHAR dest, timeout_ms` (R170). -/
def execGetChar (p : Bool) (timeoutMs : Word) (s : State) : Host.Outcome State Fault Refusal :=
  mainEvent (.getChar p timeoutMs) getCharStart getCharEvent s

end Sys2Proof.Machine
end

