-- ==== Sys2Proof/Machine/Init.lean ====
section
/-! DEFINITION. `INIT` (41_init R140 to R145): disable, clear, configure baud, configure line control, enable, read
back. -/

namespace Sys2Proof.Machine

/-- Step 1: `baud_rate = 0` is rejected with no hardware touched (R140, R235). -/
def initStart (s : State) : State :=
  if s.latch.arg = 0#32 then goto .main (.done .invalidParam) s else goto .main .iWCtrl0 s

/-- Steps 2 to 7, one event each, and the completion (R140, R141, R126). -/
def initEvent (s : State) : Option State :=
  match s.m.phase with
  | .iWCtrl0 => some (goto .main .iWIcr { writeReg .main .ctrl 0#32 s with devState := .configuring })
  | .iWIcr =>
    let t := writeReg .main .icr Word.allOnes s
    if divisor s.cfg s.latch.arg = 0 then
      some (goto .main (.done .invalidParam) { t with devState := .disabled })
    else some (goto .main .iWIbrd { t with opCfg := some (opCfgOf s.cfg s.latch.arg) })
  | .iWIbrd => some (goto .main .iWFbrd (writeReg .main .ibrd (ibrdValue s.cfg s.latch.arg) s))
  | .iWFbrd => some (goto .main .iWLcr (writeReg .main .fbrd (fbrdValue s.cfg s.latch.arg) s))
  | .iWLcr => some (goto .main .iWCtrlEn (writeReg .main .lcr s.cfg.lcr8n1 s))
  | .iWCtrlEn => some (goto .main .iRCtrl (writeReg .main .ctrl (ctrlEnabling s.cfg) s))
  | .iRCtrl =>
    let t := readReg .main .ctrl s
    if anySet t.m.tmp s.cfg.ctrlEn then some (goto .main (.done .ok) { t with devState := .enabled })
    else some (goto .main (.done .initFailed) { t with devState := .disabled })
  | .done code => some (complete code s)
  | _ => none

/-- One event of `INIT baud_rate` (R140). -/
def execInit (baud : Word) (s : State) : Host.Outcome State Fault Refusal :=
  mainEvent (.init baud) initStart initEvent s

end Sys2Proof.Machine
end

