-- ==== Sys2Proof/Machine/InterruptMask.lean ====
section
/-! DEFINITION. `ENABLE_INTERRUPTS` and `DISABLE_INTERRUPTS` (45_interrupt_mask R190 to R192). -/

namespace Sys2Proof.Machine

/-- The acceptance: a read first under `rmw`, the write at once under `overwrite` (40_common R126). -/
def maskStart (s : State) : State :=
  match s.cfg.imscUpdate with
  | .rmw => goto .main .mRImsc s
  | .overwrite => goto .main .mWImsc s

/-- The events, where `value` gives the word written from the word read. -/
def maskEvent (value : Cfg → Word → Word) (s : State) : Option State :=
  match s.m.phase with
  | .mRImsc => some (goto .main .mWImsc (readReg .main .imsc s))
  | .mWImsc => some (goto .main (.done .ok) (writeReg .main .imsc (value s.cfg s.m.tmp) s))
  | .done code => some (complete code s)
  | _ => none

/-- One event of `ENABLE_INTERRUPTS` (R190). -/
def execEnableInterrupts (s : State) : Host.Outcome State Fault Refusal :=
  mainEvent .enableInterrupts maskStart (maskEvent imscEnabling) s

/-- One event of `DISABLE_INTERRUPTS` (R191). -/
def execDisableInterrupts (s : State) : Host.Outcome State Fault Refusal :=
  mainEvent .disableInterrupts maskStart (maskEvent imscDisabling) s

end Sys2Proof.Machine
end

