-- ==== Sys2Proof/Machine/IrqHandler.lean ====
section
/-! DEFINITION. `IRQ_HANDLER` (47_interrupt_handler R210 to R214), on the irq context. -/

namespace Sys2Proof.Machine

/-- The events of a handler run: the `MIS` test, the two inner sequences, the interrupt clear inside the branch taken
when the receive bit is set, and the return (R210, 40_common R126). -/
def handlerEvent (s : State) : Option State :=
  match s.q.phase with
  | .hRMis =>
    let t := readReg .irq .mis s
    if anySet t.q.tmp s.cfg.intRx then some (rxStart .irq (setKont .irq .handler t))
    else some (goto .irq .hDone t)
  | .hWIcr => some (goto .irq .hDone (writeReg .irq .icr s.cfg.intRx s))
  | .hDone => some (leaveHandler s)
  | _ =>
    match getEvent .irq s with
    | some t => some t
    | none => sendEvent .irq s

/-- One event of `IRQ_HANDLER`: the dispatch where no handler runs (60 R234, R237), else the run's next event. A
handler is not re-entered (R238). -/
def execIrqHandler (s : State) : Host.Outcome State Fault Refusal :=
  if s.q.busy then
    match handlerEvent s with
    | some t => .next t
    | none => .fault .sequencer
  else .next (enterHandler s)

end Sys2Proof.Machine
end

