-- ==== Sys2Proof/Machine/SendChar.lean ====
section
/-! DEFINITION. `SEND_CHAR` (42_send_char R160 to R163). -/

namespace Sys2Proof.Machine

/-- The acceptance: `kont <- K_SEND_CHAR`, `TxStart` (40_common R126). -/
def sendCharStart (s : State) : State := txStart .main (setKont .main .sendChar s)

/-- The events of `SendCharSeq` and the completion. -/
def sendCharEvent (s : State) : Option State :=
  match s.m.phase with
  | .done code => some (complete code s)
  | _ => sendEvent .main s

/-- One event of `SEND_CHAR c, timeout_ms` (R160); it is the same in every `dev_state` (R161). -/
def execSendChar (c : Byte) (timeoutMs : Word) (s : State) : Host.Outcome State Fault Refusal :=
  mainEvent (.sendChar c timeoutMs) sendCharStart sendCharEvent s

end Sys2Proof.Machine
end

