-- ==== Sys2Proof/Machine/SendString.lean ====
section
/-! DEFINITION. `SEND_STRING` (44_send_string R180 to R183). -/

namespace Sys2Proof.Machine

/-- The acceptance: a null string is rejected, an empty one is done, else the first byte is latched and its poll begins
(R180, 40_common R126). -/
def sendStringStart (s : State) : State :=
  if s.latch.p then
    match s.latch.str with
    | [] => goto .main (.done .ok) s
    | b :: _ => txStart .main (setKont .main .sendString { s with latch := { s.latch with c := b } })
  else goto .main (.done .invalidParam) s

/-- The events of `SendCharSeq`, once per byte, and the completion. -/
def sendStringEvent (s : State) : Option State :=
  match s.m.phase with
  | .done code => some (complete code s)
  | _ => sendEvent .main s

/-- One event of `SEND_STRING str, timeout_ms` (R180). With `p = 0` a payload, if any, is ignored (30_encoding R96):
the operation is the null string. -/
def execSendString (p : Bool) (str : List Byte) (timeoutMs : Word) (s : State) : Host.Outcome State Fault Refusal :=
  mainEvent (.sendString p (if p then str else []) timeoutMs) sendStringStart sendStringEvent s

end Sys2Proof.Machine
end

