-- ==== Sys2Proof/Machine/Dispatch.lean ====
section
/-! DEFINITION. `exec i s`: one event of the operation `i` (40_common R126), its acceptance where its context is idle,
else the next event of its run. One arm per operation. -/

namespace Sys2Proof.Machine

def exec (i : Instr) (s : State) : Host.Outcome State Fault Refusal :=
  match i with
  | .init baud => Sys2Proof.Machine.execInit baud s
  | .sendChar c timeoutMs => Sys2Proof.Machine.execSendChar c timeoutMs s
  | .getChar p timeoutMs => Sys2Proof.Machine.execGetChar p timeoutMs s
  | .sendString p str timeoutMs => Sys2Proof.Machine.execSendString p str timeoutMs s
  | .enableInterrupts => Sys2Proof.Machine.execEnableInterrupts s
  | .disableInterrupts => Sys2Proof.Machine.execDisableInterrupts s
  | .clearErrors => Sys2Proof.Machine.execClearErrors s
  | .getErrorStatus => Sys2Proof.Machine.execGetErrorStatus s
  | .irqHandler => Sys2Proof.Machine.execIrqHandler s

end Sys2Proof.Machine
end

