-- ==== Sys2Proof/Machine/Fetch.lean ====
section
/-! DEFINITION. Which context makes the next event, and of which operation (10_state R20, 60 R234 to R238, 40_common
R120, 30_encoding R94). -/

namespace Sys2Proof.Machine

/-- What happens next. -/
inductive Next where
  /-- An event of the operation, in the state in which the turn is taken and, for an acceptance, the offer withdrawn. -/
  | run (i : Instr) (s : State)
  /-- Nothing: both contexts are idle and no command is offered (70 R274). -/
  | idle (s : State)
  /-- The offered word spells no operation (30_encoding R94). -/
  | refuse (why : DecodeError)
  /-- The main context is busy and its latches hold no operation: no run reaches this. -/
  | stuck

/-- The main context's move: the operation in progress goes on; an idle context looks at the command port (R120). -/
def fetchMain (s : State) : Next :=
  if s.m.busy then
    match running s with
    | some i => .run i s
    | none => .stuck
  else
    match s.port with
    | [] => .idle s
    | o :: rest =>
      match decode o with
      | .invalid e => .refuse e
      | .ok i => .run i { s with port := rest }

/-- While the handler runs, its next event (60 R236, R237); else the turn decides between a dispatch (R234) and the
main context. -/
def fetch (s : State) : Next :=
  if s.q.busy then .run .irqHandler s
  else
    match nextTurn s with
    | .dispatch => .run .irqHandler (takeTurn s)
    | .main => fetchMain (takeTurn s)

/-- Place a command so that the very next step accepts it: both contexts idle (R120), the main context's turn, and the
command at the head of the port (log entry 12). -/
def placeOffer (o : Offer) (s : State) : State :=
  { s with
    m := { s.m with busy := false, phase := .idle, kont := none }
    q := { s.q with busy := false, phase := .idle, kont := none }
    turns := .main :: s.turns
    port := o :: s.port }

end Sys2Proof.Machine
end

