-- ==== Sys2Proof/Machine/Step.lean ====
section
/-! DEFINITION. One step of the machine: one event (00_scope R11) of the context that moves. -/

namespace Sys2Proof.Machine

/-- One step. -/
def step (s : State) : Host.Outcome State Fault Refusal :=
  match fetch s with
  | .run i t => exec i t
  | .idle t => .next t
  | .refuse e => .refused (.spellsNoOperation e)
  | .stuck => .fault .sequencer

/-- The state with a word of the opcode table placed where the step takes its next command: at the command port, under
the row's tag, with both contexts idle and the turn the main context's. -/
def State.withFetchWord (s : State) (nbits w : Nat) : State := placeOffer (tableOffer nbits w) s

end Sys2Proof.Machine
end

