-- ==== Sys2Proof/Machine/Pseudocode.lean ====
section
/-! DEFINITION. The pseudocode of the operation rules, which "is normative for the sequence of bus transactions and time
samples" (40_common R125), as functions of an oracle script: the answers of the peripheral and of the time source, in
order (95 section 1). A function answers none where the script runs out before the operation ends (a poll that has not
ended, R127). Claims compare the micro-states of R126 with it. -/

namespace Sys2Proof.Machine

/-- How a poll ends: `TimedOut` or `Ready` (R121), its events, and the rest of the script. -/
structure PollOut where
  timedOut : Bool
  events : List Event
  bus : List Word
  clock : List Word
  deriving DecidableEq, Repr

/-- How a sequence ends: its code, the byte it delivers (meaningful for `GetCharSeq` with Ok only), its events, and the
rest of the script. -/
structure SeqOut where
  code : ErrorStatus
  byte : Byte
  events : List Event
  bus : List Word
  clock : List Word
  deriving DecidableEq, Repr

/-- How an operation of the main context ends: also what it writes to `OUT_CHAR`, `dev_state` and `op_cfg`, none where
it leaves them alone. -/
structure OpOut where
  code : ErrorStatus
  outChar : Option Byte
  devState : Option DevState
  opCfg : Option OpCfg
  events : List Event
  bus : List Word
  clock : List Word
  deriving DecidableEq, Repr

/-- The loop of `PollFlag` (R121): the flag first, then the deadline where there is one. -/
def pollLoop (k : Cfg) (c : Ctx) (mask budget tStart : Word) : List Word → List Word → Option PollOut
  | [], _ => none
  | v :: bus, clock =>
    let here := [Event.read c (Cfg.addr k .flag) v]
    if anySet v mask then
      if budget = 0#32 then
        (pollLoop k c mask budget tStart bus clock).map fun o => { o with events := here ++ o.events }
      else
        match clock with
        | [] => none
        | n :: clock' =>
          if deadlinePassed n tStart budget then some ⟨true, here ++ [.now c n], bus, clock'⟩
          else
            (pollLoop k c mask budget tStart bus clock').map fun o =>
              { o with events := here ++ [.now c n] ++ o.events }
    else some ⟨false, here, bus, clock⟩

/-- `PollFlag(M, T)` (R121): one time sample first where `T != 0`. -/
def pollSpec (k : Cfg) (c : Ctx) (mask budget : Word) (bus clock : List Word) : Option PollOut :=
  if budget = 0#32 then pollLoop k c mask budget 0#32 bus clock
  else
    match clock with
    | [] => none
    | t :: clock' =>
      (pollLoop k c mask budget t bus clock').map fun o => { o with events := Event.now c t :: o.events }

/-- `SendCharSeq(c, T)` (42_send_char R160). -/
def sendSeqSpec (k : Cfg) (c : Ctx) (budget : Word) (ch : Byte) (bus clock : List Word) : Option SeqOut :=
  match pollSpec k c k.flagTxff budget bus clock with
  | none => none
  | some p =>
    if p.timedOut then some ⟨.timeout, 0#8, p.events, p.bus, p.clock⟩
    else
      match p.bus with
      | [] => none
      | s :: bus' =>
        let seen := p.events ++ [Event.read c (Cfg.addr k .rsrEcr) s]
        if anySet s k.rsrAny then some ⟨.hardwareError, 0#8, seen, bus', p.clock⟩
        else some ⟨.ok, 0#8, seen ++ [.write c (Cfg.addr k .data) (ch.setWidth 32)], bus', p.clock⟩

/-- `GetCharSeq(T)` (43_get_char R170). -/
def getSeqSpec (k : Cfg) (c : Ctx) (budget : Word) (bus clock : List Word) : Option SeqOut :=
  match pollSpec k c k.flagRxfe budget bus clock with
  | none => none
  | some p =>
    if p.timedOut then some ⟨.timeout, 0#8, p.events, p.bus, p.clock⟩
    else
      match p.bus with
      | [] => none
      | s :: bus' =>
        let seen := p.events ++ [Event.read c (Cfg.addr k .rsrEcr) s]
        if decodeRxStatus k s = .ok then
          match bus' with
          | [] => none
          | d :: bus'' => some ⟨.ok, lowByte d, seen ++ [.read c (Cfg.addr k .data) d], bus'', p.clock⟩
        else some ⟨decodeRxStatus k s, 0#8, seen, bus', p.clock⟩

/-- The loop of `SEND_STRING` (44_send_string R180): the first failure is propagated unchanged. -/
def stringSpec (k : Cfg) (budget : Word) : List Byte → List Word → List Word → Option SeqOut
  | [], bus, clock => some ⟨.ok, 0#8, [], bus, clock⟩
  | b :: rest, bus, clock =>
    match sendSeqSpec k .main budget b bus clock with
    | none => none
    | some o =>
      if o.code = .ok then
        (stringSpec k budget rest o.bus o.clock).map fun o' => { o' with events := o.events ++ o'.events }
      else some o

/-- `INIT(baud_rate)`, steps 1 to 7 (41_init R140). -/
def initSpec (k : Cfg) (baud : Word) (bus clock : List Word) : Option OpOut :=
  let w (r : Reg) (v : Word) := Event.write .main (Cfg.addr k r) v
  let disable := [w .ctrl 0#32, w .icr Word.allOnes]
  if baud = 0#32 then some ⟨.invalidParam, none, none, none, [], bus, clock⟩
  else if divisor k baud = 0 then some ⟨.invalidParam, none, some .disabled, none, disable, bus, clock⟩
  else
    match bus with
    | [] => none
    | v :: bus' =>
      let seen := disable ++ [w .ibrd (ibrdValue k baud), w .fbrd (fbrdValue k baud), w .lcr k.lcr8n1,
        w .ctrl (ctrlEnabling k), .read .main (Cfg.addr k .ctrl) v]
      if anySet v k.ctrlEn then some ⟨.ok, none, some .enabled, some (opCfgOf k baud), seen, bus', clock⟩
      else some ⟨.initFailed, none, some .disabled, some (opCfgOf k baud), seen, bus', clock⟩

/-- `ENABLE_INTERRUPTS()` and `DISABLE_INTERRUPTS()` (45 R190, R191), where `value` gives the word written. -/
def maskSpec (k : Cfg) (value : Cfg → Word → Word) (bus clock : List Word) : Option OpOut :=
  match k.imscUpdate with
  | .overwrite =>
    some ⟨.ok, none, none, none, [.write .main (Cfg.addr k .imsc) (value k 0#32)], bus, clock⟩
  | .rmw =>
    match bus with
    | [] => none
    | v :: bus' =>
      some ⟨.ok, none, none, none,
        [.read .main (Cfg.addr k .imsc) v, .write .main (Cfg.addr k .imsc) (value k v)], bus', clock⟩

/-- A sequence that is the whole of an operation. -/
def SeqOut.asOp (o : SeqOut) (outChar : Option Byte) : OpOut :=
  ⟨o.code, outChar, none, none, o.events, o.bus, o.clock⟩

/-- The operations of the main context (R140, R160, R170, R180, R190, R191, R200, R201). -/
def opSpec (k : Cfg) (i : Instr) (bus clock : List Word) : Option OpOut :=
  match i with
  | .init baud => initSpec k baud bus clock
  | .sendChar ch t => (sendSeqSpec k .main t ch bus clock).map fun o => o.asOp none
  | .getChar p t =>
    if p then
      (getSeqSpec k .main t bus clock).map fun o => o.asOp (if o.code = .ok then some o.byte else none)
    else some ⟨.invalidParam, none, none, none, [], bus, clock⟩
  | .sendString p str t =>
    if p then (stringSpec k t str bus clock).map fun o => o.asOp none
    else some ⟨.invalidParam, none, none, none, [], bus, clock⟩
  | .enableInterrupts => maskSpec k imscEnabling bus clock
  | .disableInterrupts => maskSpec k imscDisabling bus clock
  | .clearErrors => some ⟨.ok, none, none, none, [.write .main (Cfg.addr k .rsrEcr) Word.allOnes], bus, clock⟩
  | .getErrorStatus =>
    match bus with
    | [] => none
    | s :: bus' =>
      some ⟨decodeRxStatus k s, none, none, none, [.read .main (Cfg.addr k .rsrEcr) s], bus', clock⟩
  | .irqHandler => none

/-- How a handler run ends: the byte it received, none where it received none, its events, the rest of the script. -/
structure HandlerOut where
  received : Option Byte
  events : List Event
  bus : List Word
  clock : List Word
  deriving DecidableEq, Repr

/-- The receive and the echo of a handler run, without the interrupt clear (47 R210). -/
def echoSpec (k : Cfg) (bus clock : List Word) : Option HandlerOut :=
  match getSeqSpec k .irq k.defaultTimeoutMs bus clock with
  | none => none
  | some g =>
    if g.code = .ok then
      (sendSeqSpec k .irq k.defaultTimeoutMs g.byte g.bus g.clock).map fun o =>
        ⟨some g.byte, g.events ++ o.events, o.bus, o.clock⟩
    else some ⟨none, g.events, g.bus, g.clock⟩

/-- `IRQ_HANDLER()` (47_interrupt_handler R210). -/
def handlerSpec (k : Cfg) (bus clock : List Word) : Option HandlerOut :=
  match bus with
  | [] => none
  | v :: bus' =>
    let seen := Event.read .irq (Cfg.addr k .mis) v
    if anySet v k.intRx then
      (echoSpec k bus' clock).map fun o =>
        { o with events := seen :: o.events ++ [.write .irq (Cfg.addr k .icr) k.intRx] }
    else some ⟨none, [seen], bus', clock⟩

end Sys2Proof.Machine
end

