-- ==== Sys2Proof/WellFormed.lean ====
section
/-! DEFINITION. The checks the spec asks for: of an operation (30_encoding R96), of a configuration (00_scope R6), and
of a command word against the rows of R92. -/

namespace Sys2Proof

open Sys2Proof.Machine (Ctx)

/-- An operation is well formed: a null string carries no payload (R96). Every other operand is legal at every value
of its width (R93). -/
def Instr.wellFormed : Instr → Bool
  | .sendString p str _ => p || str.isEmpty
  | .init _ => true
  | .sendChar _ _ => true
  | .getChar _ _ => true
  | .enableInterrupts => true
  | .disableInterrupts => true
  | .clearErrors => true
  | .getErrorStatus => true
  | .irqHandler => true

/-- A mask is a single bit. -/
def singleBit (m : Word) : Bool := (List.range 32).any fun n => m == BitVec.ofNat 32 (2 ^ n)

/-- The constraints a model must check of any `Cfg` (R6). -/
def Cfg.wellFormed (k : Cfg) : Bool :=
  k.uartBase.toNat % 4 == 0 && decide (k.uartBase.toNat + 0x47 < 2 ^ 32)
    && decide (1 ≤ k.clockHz) && decide (k.clockHz < 2 ^ 32)
    && [k.rsrOe, k.rsrFe, k.rsrPe, k.rsrBe].all singleBit && decide ([k.rsrOe, k.rsrFe, k.rsrPe, k.rsrBe].Nodup)
    && [k.ctrlEn, k.ctrlTxe, k.ctrlRxe].all singleBit && decide ([k.ctrlEn, k.ctrlTxe, k.ctrlRxe].Nodup)
    && [k.flagTxff, k.flagRxfe].all singleBit && decide ([k.flagTxff, k.flagRxfe].Nodup)
    && singleBit k.intRx

/-- A row of the table of R92: the operation code, the tag, and the 48-bit `match` and `mask`. -/
structure Row where
  op : Code
  ctx : Ctx
  mtch : CommandWord
  mask : CommandWord
  deriving DecidableEq, Repr

/-- The nine rows of R92. -/
def rows : List Row :=
  [ ⟨1#4, .main, 0x100000000000#48, 0xFFFF00000000#48⟩,
    ⟨2#4, .main, 0x200000000000#48, 0xFF0000000000#48⟩,
    ⟨3#4, .main, 0x300000000000#48, 0xFEFF00000000#48⟩,
    ⟨4#4, .main, 0x400000000000#48, 0xFEFF00000000#48⟩,
    ⟨5#4, .main, 0x500000000000#48, 0xFFFFFFFFFFFF#48⟩,
    ⟨6#4, .main, 0x600000000000#48, 0xFFFFFFFFFFFF#48⟩,
    ⟨7#4, .main, 0x700000000000#48, 0xFFFFFFFFFFFF#48⟩,
    ⟨8#4, .main, 0x800000000000#48, 0xFFFFFFFFFFFF#48⟩,
    ⟨9#4, .irq, 0x900000000000#48, 0xFFFFFFFFFFFF#48⟩ ]

/-- "A command word `CW` spells the operation of a row exactly when `(CW & mask) == match` and the context tag is the
row's" (R92). -/
def Row.spelledBy (r : Row) (o : Offer) : Bool := (o.cw &&& r.mask) == r.mtch && r.ctx == o.ctx

end Sys2Proof
end

