-- ==== Sys2Proof/Safety.lean ====
section
/-! DEFINITION. The terms claims are stated in: uninterrupted runs of one operation, the invariant of the sequencers, the
transactions the block may perform, and the properties the spec only ASSUMES of the peripheral (20_memory R69 to R77),
which are premises a claim may name and no part of the step (R68). -/

namespace Sys2Proof.Machine

/-! ### Runs of one operation -/

/-- `n` events of one operation in a row, nothing preempting it. -/
def execN (i : Instr) : Nat → State → Host.Outcome State Fault Refusal
  | 0, s => .next s
  | n + 1, s =>
    match exec i s with
    | .next t => execN i n t
    | .fault r => .fault r
    | .refused r => .refused r

/-- `n` steps of the machine in a row: any interleaving of the contexts the turns allow. -/
def stepN : Nat → State → Host.Outcome State Fault Refusal
  | 0, s => .next s
  | n + 1, s =>
    match step s with
    | .next t => stepN n t
    | .fault r => .fault r
    | .refused r => .refused r

/-- Both contexts are idle: a command can be accepted (40_common R120). -/
def bothIdle (s : State) : Prop := s.m.busy = false ∧ s.q.busy = false

/-- The operation `i`, accepted in `s` and run without preemption, completes with the outcome `o` of the pseudocode: the
events are appended, `RESULT` and the result port carry the code, `OUT_CHAR`, `dev_state` and `op_cfg` are written where
the pseudocode writes them and keep their values elsewhere, the answers read are consumed, and nothing of the irq context,
the configuration, the turns or the command port changes. Of the main context's latches, `kont` and scratch registers it
says nothing. -/
def completesAs (i : Instr) (s : State) (o : OpOut) : Prop :=
  ∃ n t, execN i n s = .next t
    ∧ t.m.busy = false ∧ t.m.phase = .idle
    ∧ t.history = s.history ++ o.events
    ∧ t.result = some o.code.code
    ∧ t.results = s.results ++ [⟨o.code.code, o.outChar⟩]
    ∧ t.outChar = o.outChar.or s.outChar
    ∧ t.devState = o.devState.getD s.devState
    ∧ t.opCfg = o.opCfg.or s.opCfg
    ∧ t.busAnswers = o.bus ∧ t.clockAnswers = o.clock
    ∧ t.q = s.q ∧ t.qChar = s.qChar ∧ t.cfg = s.cfg
    ∧ t.turns = s.turns ∧ t.turnCount = s.turnCount ∧ t.port = s.port

/-- A handler run dispatched in `s` returns with the outcome `o` of the pseudocode, and leaves everything of the main
context as it was (60 R237, R238, 47 R210). -/
def handlerCompletesAs (s : State) (o : HandlerOut) : Prop :=
  ∃ n t, execN .irqHandler (n + 1) s = .next t
    ∧ t.q.busy = false ∧ t.q.phase = .idle
    ∧ t.history = s.history ++ o.events
    ∧ t.qChar = o.received.getD s.qChar
    ∧ t.busAnswers = o.bus ∧ t.clockAnswers = o.clock
    ∧ t.m = s.m ∧ t.latch = s.latch ∧ t.result = s.result ∧ t.outChar = s.outChar
    ∧ t.devState = s.devState ∧ t.opCfg = s.opCfg ∧ t.results = s.results ∧ t.cfg = s.cfg
    ∧ t.turns = s.turns ∧ t.turnCount = s.turnCount ∧ t.port = s.port

/-! ### The invariant of the sequencers -/

/-- The codes an operation can return: the matrix of 60 R231, by operation code. -/
def mayReturn (op : Code) (e : ErrorStatus) : Bool :=
  match op.toNat with
  | 1 => [.ok, .initFailed, .invalidParam].contains e
  | 2 => [.ok, .timeout, .hardwareError].contains e
  | 3 => [.ok, .timeout, .invalidParam, .overrun, .framing, .parity, .noise].contains e
  | 4 => [.ok, .timeout, .invalidParam, .hardwareError].contains e
  | 5 => e == .ok
  | 6 => e == .ok
  | 7 => e == .ok
  | 8 => [.ok, .overrun, .framing, .parity, .noise].contains e
  | _ => false

/-- The main context is sending a character: `SEND_CHAR`, or `SEND_STRING` at the byte `m.str[m.idx]` (40_common
R126). -/
def mainSending (s : State) : Prop :=
  (s.latch.op = 2#4 ∧ s.m.kont = some .sendChar)
    ∨ (s.latch.op = 4#4 ∧ s.m.kont = some .sendString ∧ s.latch.str[s.latch.idx]? = some s.latch.c)

/-- The main context is receiving a character for `GET_CHAR`. -/
def mainReceiving (s : State) : Prop :=
  s.latch.op = 3#4 ∧ s.latch.p = true ∧ s.m.kont = some .getChar

/-- `INIT` has found the divisor non-zero and recorded the configuration (41_init R140 step 4). -/
def initConfigured (s : State) : Prop :=
  s.latch.op = 1#4 ∧ divisor s.cfg s.latch.arg ≠ 0 ∧ s.opCfg = some (opCfgOf s.cfg s.latch.arg)

/-- The micro-states of a busy main context, each with what R126 says of the registers in it. -/
def mainFitsAt (p : Phase) (s : State) : Prop :=
  match p with
  | .idle => False
  | .iWCtrl0 => s.latch.op = 1#4 ∧ s.latch.arg ≠ 0#32
  | .iWIcr => s.latch.op = 1#4 ∧ s.latch.arg ≠ 0#32
  | .iWIbrd => initConfigured s
  | .iWFbrd => initConfigured s
  | .iWLcr => initConfigured s
  | .iWCtrlEn => initConfigured s
  | .iRCtrl => initConfigured s
  | .tStart => mainSending s ∧ s.latch.arg ≠ 0#32
  | .tRFlag => mainSending s
  | .tNow => mainSending s ∧ s.latch.arg ≠ 0#32
  | .tRRsr => mainSending s
  | .tWData => mainSending s
  | .gStart => mainReceiving s ∧ s.latch.arg ≠ 0#32
  | .gRFlag => mainReceiving s
  | .gNow => mainReceiving s ∧ s.latch.arg ≠ 0#32
  | .gRRsr => mainReceiving s
  | .gRData => mainReceiving s
  | .mRImsc => (s.latch.op = 5#4 ∨ s.latch.op = 6#4) ∧ s.cfg.imscUpdate = .rmw
  | .mWImsc => s.latch.op = 5#4 ∨ s.latch.op = 6#4
  | .eWEcr => s.latch.op = 7#4
  | .qRRsr => s.latch.op = 8#4
  | .hRMis => False
  | .hWIcr => False
  | .done code => mayReturn s.latch.op code = true ∧ (s.latch.op = 3#4 → code = .ok → s.outChar.isSome = true)
  | .hDone => False

/-- A busy main context is in a micro-state of its operation. -/
def mainPhaseFits (s : State) : Prop := mainFitsAt s.m.phase s

/-- The micro-states of a busy irq context. -/
def irqFitsAt (p : Phase) (s : State) : Prop :=
  match p with
  | .hRMis => True
  | .hWIcr => True
  | .hDone => True
  | .tStart => s.q.kont = some .handler ∧ s.cfg.defaultTimeoutMs ≠ 0#32
  | .tRFlag => s.q.kont = some .handler
  | .tNow => s.q.kont = some .handler ∧ s.cfg.defaultTimeoutMs ≠ 0#32
  | .tRRsr => s.q.kont = some .handler
  | .tWData => s.q.kont = some .handler
  | .gStart => s.q.kont = some .handler ∧ s.cfg.defaultTimeoutMs ≠ 0#32
  | .gRFlag => s.q.kont = some .handler
  | .gNow => s.q.kont = some .handler ∧ s.cfg.defaultTimeoutMs ≠ 0#32
  | .gRRsr => s.q.kont = some .handler
  | .gRData => s.q.kont = some .handler
  | .idle => False
  | .iWCtrl0 => False
  | .iWIcr => False
  | .iWIbrd => False
  | .iWFbrd => False
  | .iWLcr => False
  | .iWCtrlEn => False
  | .iRCtrl => False
  | .mRImsc => False
  | .mWImsc => False
  | .eWEcr => False
  | .qRRsr => False
  | .done _ => False

/-- A busy irq context is in a micro-state of a handler run. -/
def irqPhaseFits (s : State) : Prop := irqFitsAt s.q.phase s

/-- The micro-states of `INIT` between the write of step 2 and the read-back of step 7, in which `dev_state` is
Configuring (41_init R141). -/
def configuringPhase : Phase → Bool
  | .iWIcr => true
  | .iWIbrd => true
  | .iWFbrd => true
  | .iWLcr => true
  | .iWCtrlEn => true
  | .iRCtrl => true
  | _ => false

/-- The invariant of the machine: an idle context has `phase = IDLE` and no continuation (10_state R26); a busy one is
in a micro-state of its operation (R126); the latches hold what an acceptance writes (R22); `dev_state` is Configuring
exactly inside `INIT` (R141); `RESULT` holds the code of the last completed operation (R23), never Busy (60 R225); the
Operating Configuration has a non-zero divisor (R25). -/
structure Inv (s : State) : Prop where
  mainIdle : s.m.busy = false → s.m.phase = .idle ∧ s.m.kont = none
  mainBusy : s.m.busy = true → mainPhaseFits s
  irqIdle : s.q.busy = false → s.q.phase = .idle ∧ s.q.kont = none
  irqBusy : s.q.busy = true → irqPhaseFits s
  nullString : s.latch.p = false → s.latch.str = []
  index : s.latch.idx ≤ s.latch.str.length
  configuring : s.devState = .configuring ↔ configuringPhase s.m.phase = true
  resultIsLast : s.result = s.results.getLast?.map Completion.code
  resultNamed : ∀ v, s.result = some v → ∃ e, ErrorStatus.ofCode v = some e ∧ e ≠ .busy
  opCfgOfBaud : ∀ o, s.opCfg = some o → o = opCfgOf s.cfg o.baudRate ∧ o.divisor ≠ 0

/-! ### The transactions the block performs -/

/-- The transactions that can occur in a run: the registers each context reads and writes, and the values it writes
(10_state R28 to R41, 20_memory R61). `IFLS` and `RIS` are never touched, `FLAG` and `MIS` never written. -/
def legalEvent (k : Cfg) : Event → Prop
  | .now _ _ => True
  | .read .main a _ => a ∈ [Reg.data, .rsrEcr, .flag, .ctrl, .imsc].map (Cfg.addr k)
  | .read .irq a _ => a ∈ [Reg.data, .rsrEcr, .flag, .mis].map (Cfg.addr k)
  | .write .main a v =>
    (a = Cfg.addr k .data ∧ v.toNat < 256) ∨ (a = Cfg.addr k .rsrEcr ∧ v = Word.allOnes)
      ∨ (a = Cfg.addr k .ibrd) ∨ (a = Cfg.addr k .fbrd ∧ v.toNat < 64) ∨ (a = Cfg.addr k .lcr ∧ v = k.lcr8n1)
      ∨ (a = Cfg.addr k .ctrl ∧ (v = 0#32 ∨ v = ctrlEnabling k)) ∨ (a = Cfg.addr k .imsc)
      ∨ (a = Cfg.addr k .icr ∧ v = Word.allOnes)
  | .write .irq a v =>
    (a = Cfg.addr k .data ∧ v.toNat < 256) ∨ (a = Cfg.addr k .icr ∧ v = k.intRx)

/-- The address of a bus transaction; a time sample has none. -/
def Event.address : Event → Option Word
  | .read _ a _ => some a
  | .write _ a _ => some a
  | .now _ _ => none

/-- An event is a write to the bus. -/
def Event.isWrite : Event → Bool
  | .read _ _ _ => false
  | .write _ _ _ => true
  | .now _ _ => false

/-- An event is a sample of the time source. -/
def Event.isNow : Event → Bool
  | .read _ _ _ => false
  | .write _ _ _ => false
  | .now _ _ => true

/-- The characters the main context has written to `DATA`, in order. -/
def dataWrites (k : Cfg) (es : List Event) : List Byte :=
  es.filterMap fun e =>
    match e with
    | .write .main a v => if a = Cfg.addr k .data then some (lowByte v) else none
    | .write .irq _ _ => none
    | .read _ _ _ => none
    | .now _ _ => none

/-! ### What the source assumes of the peripheral -/

/-- What the peripheral holds at a moment, as far as R69 to R77 speak of it (10_state R42). A ghost: no state of the
model holds it. -/
structure Peripheral where
  /-- The transmit FIFO is full. -/
  txFull : Bool
  /-- The received bytes not yet consumed, oldest first. -/
  rxFifo : List Byte
  /-- The bytes handed over for transmission, oldest first. -/
  sent : List Byte
  /-- The recorded receive errors, as bits of `RSR_ECR`. -/
  errors : Word
  /-- `RIS` and `IMSC`. -/
  raw : Word
  imsc : Word
  deriving DecidableEq, Repr

/-- A transaction with the peripheral just before it and just after it. -/
structure Observed where
  event : Event
  before : Peripheral
  after : Peripheral
  deriving DecidableEq, Repr

/-- R69: the two flags report the present state of the FIFOs. -/
def Observed.flagsReport (k : Cfg) (o : Observed) : Prop :=
  ∀ c v, o.event = .read c (Cfg.addr k .flag) v →
    anySet v k.flagTxff = o.before.txFull ∧ anySet v k.flagRxfe = o.before.rxFifo.isEmpty

/-- R70: a read of `DATA` delivers the oldest received byte and consumes it. -/
def Observed.dataReadConsumes (k : Cfg) (o : Observed) : Prop :=
  ∀ c v b rest, o.event = .read c (Cfg.addr k .data) v → o.before.rxFifo = b :: rest →
    lowByte v = b ∧ o.after.rxFifo = rest

/-- R71 with R69: a write of `DATA` while the transmit FIFO is not full hands bits `[7:0]` over, in order. -/
def Observed.dataWriteSends (k : Cfg) (o : Observed) : Prop :=
  ∀ c v, o.event = .write c (Cfg.addr k .data) v → o.before.txFull = false →
    o.after.sent = o.before.sent ++ [lowByte v]

/-- R72: a read of `RSR_ECR` shows the recorded errors and has no side effect. -/
def Observed.statusReadPure (k : Cfg) (o : Observed) : Prop :=
  ∀ c v, o.event = .read c (Cfg.addr k .rsrEcr) v →
    v &&& k.rsrAny = o.before.errors &&& k.rsrAny ∧ o.after = o.before

/-- R73: a write of `ALL_ONES` to `RSR_ECR` clears all four recorded errors. -/
def Observed.clearClears (k : Cfg) (o : Observed) : Prop :=
  ∀ c, o.event = .write c (Cfg.addr k .rsrEcr) Word.allOnes → o.after.errors &&& k.rsrAny = 0#32

/-- A transaction with `RSR_ECR` that clears the recorded errors: a write (10_state R30, R73). -/
def Observed.clearsErrors (k : Cfg) (o : Observed) : Prop := ∃ c v, o.event = .write c (Cfg.addr k .rsrEcr) v

/-- R74, across one event: no event of the block but a write to `RSR_ECR` clears a recorded error. -/
def Observed.errorsSticky (k : Cfg) (o : Observed) : Prop :=
  ¬o.clearsErrors k → o.before.errors &&& k.rsrAny &&& o.after.errors = o.before.errors &&& k.rsrAny

/-- R74, across a run: "a recorded error stays recorded until cleared", in the events observed one after another and
between each and the next, where the peripheral changes on its own (R78) and may record errors but clears none. -/
def errorsStayRecorded (k : Cfg) : List Observed → Prop
  | [] => True
  | [o] => o.errorsSticky k
  | o :: p :: os =>
    o.errorsSticky k ∧ o.after.errors &&& k.rsrAny &&& p.before.errors = o.after.errors &&& k.rsrAny
      ∧ errorsStayRecorded k (p :: os)

/-- R75: a responsive peripheral reads back `CTRL` with `CTRL_EN` set. The block reads `CTRL` at step 7 of `INIT`
only. -/
def Observed.responsive (k : Cfg) (o : Observed) : Prop :=
  ∀ c v, o.event = .read c (Cfg.addr k .ctrl) v → anySet v k.ctrlEn = true

/-- R76: `MIS` is `RIS` restricted to the conditions enabled in `IMSC`; a write to `IMSC` sets the mask. -/
def Observed.maskedIsRestricted (k : Cfg) (o : Observed) : Prop :=
  (∀ c v, o.event = .read c (Cfg.addr k .mis) v → v = o.before.raw &&& o.before.imsc)
    ∧ (∀ c v, o.event = .write c (Cfg.addr k .imsc) v → o.after.imsc = v)

/-- R77, 10_state R40: a write to `ICR` clears each pending condition whose bit is set in the value written. The rules
are silent on the conditions whose bit is clear in it, and the premise says nothing of them: they may stay, go or be
raised (DESIGN CHOICE, safe, log entry 25). -/
def Observed.clearsInterrupts (k : Cfg) (o : Observed) : Prop :=
  ∀ c v, o.event = .write c (Cfg.addr k .icr) v → o.after.raw &&& v = 0#32

/-- The observed events are those a run from `s` to `t` appended to the history. -/
def observedRun (s t : State) (os : List Observed) : Prop := t.history = s.history ++ os.map Observed.event

end Sys2Proof.Machine
end

