-- ==== Sys2Proof/Certificates/Slice0/Obligations.lean ====
section
/-! DEFINITION. The statements for the provers. Each docstring names the rules of spec/ it formalises. -/

open Sys2Proof Sys2Proof.Machine

/-! ### Encoding -/

/-- 30_encoding R90 to R96: decoding the encoding of a well-formed operation gives it back, at every value of every
operand. -/
def Obligations.EncodeDecodeRoundTrip : Prop :=
  ∀ i : Instr, i.wellFormed = true → decode i.offer = .ok i

/-- 95 section 11: "encoding the decoded operation gives the word back"; the tag is the operation's and the operation is
well formed. -/
def Obligations.DecodedWordIsItsEncoding : Prop :=
  ∀ (o : Offer) (i : Instr), decode o = .ok i → encode i = o.cw ∧ i.ctx = o.ctx ∧ i.wellFormed = true

/-- 30_encoding R92: a word spells the operation of a row exactly when `(CW & mask) == match` and the tag is the row's. -/
def Obligations.WordSpellsRowByMatchAndMask : Prop :=
  ∀ r ∈ rows, ∀ o : Offer, (∃ i, decode o = .ok i ∧ i.op = r.op) ↔ r.spelledBy o = true

/-- 30_encoding R101: the worked encodings, and the words it lists as refused; with one or more words of every family
from 95 section 11, and what they decode to. -/
def Obligations.WorkedEncodings : Prop :=
  encode (.init 115200#32) = 0x10000001C200#48
    ∧ encode (.sendChar 0x41#8 1000#32) = 0x2041000003E8#48
    ∧ encode (.getChar true 1000#32) = 0x3100000003E8#48
    ∧ encode (.getChar false 1000#32) = 0x3000000003E8#48
    ∧ encode (.sendString true [0x41#8, 0x54#8, 0x0D#8, 0x0A#8] 1000#32) = 0x4100000003E8#48
    ∧ (Instr.sendString true [0x41#8, 0x54#8, 0x0D#8, 0x0A#8] 1000#32).payload = [0x41#8, 0x54#8, 0x0D#8, 0x0A#8]
    ∧ encode (.sendString false [] 0#32) = 0x400000000000#48
    ∧ encode .enableInterrupts = 0x500000000000#48
    ∧ encode .getErrorStatus = 0x800000000000#48
    ∧ encode .irqHandler = 0x900000000000#48 ∧ Instr.irqHandler.ctx = .irq
    ∧ decode ⟨.main, 0x10000001C200#48, []⟩ = .ok (.init 115200#32)
    ∧ decode ⟨.main, 0x20FFFFFFFFFF#48, []⟩ = .ok (.sendChar 0xFF#8 4294967295#32)
    ∧ decode ⟨.main, 0x3000000003E8#48, []⟩ = .ok (.getChar false 1000#32)
    ∧ decode ⟨.main, 0x4100000003E8#48, [0x41#8, 0x54#8]⟩ = .ok (.sendString true [0x41#8, 0x54#8] 1000#32)
    ∧ decode ⟨.main, 0x600000000000#48, []⟩ = .ok .disableInterrupts
    ∧ decode ⟨.main, 0x700000000000#48, []⟩ = .ok .clearErrors
    ∧ decode ⟨.irq, 0x900000000000#48, []⟩ = .ok .irqHandler
    ∧ (∃ e, decode ⟨.main, 0x900000000000#48, []⟩ = .invalid e)
    ∧ (∃ e, decode ⟨.irq, 0x700000000000#48, []⟩ = .invalid e)
    ∧ ∀ c, (∃ e, decode ⟨c, 0x000000000000#48, []⟩ = .invalid e)
      ∧ (∃ e, decode ⟨c, 0x11000001C200#48, []⟩ = .invalid e)
      ∧ (∃ e, decode ⟨c, 0x500000000001#48, []⟩ = .invalid e)
      ∧ (∃ e, decode ⟨c, 0x3041000003E8#48, []⟩ = .invalid e)
      ∧ (∃ e, decode ⟨c, 0x220000000000#48, []⟩ = .invalid e)

/-- 30_encoding R94: a word that matches no row (a reserved `op`, a must-be-zero field that is not zero, a wrong tag) is
answered "invalid" by the decoder and refused by the machine, with no event. -/
def Obligations.UnspelledWordIsRefused : Prop :=
  ∀ (s : State) (o : Offer) (rest : List Offer),
    bothIdle s → nextTurn s = .main → s.port = o :: rest → (∀ r ∈ rows, r.spelledBy o = false) →
      ∃ e, decode o = .invalid e ∧ step s = .refused (.spellsNoOperation e)

/-- 30_encoding R97: the closed enumeration's ten codes, in the order the source lists them, one for each member, and
none from 10 to 15. -/
def Obligations.ErrorStatusCodes : Prop :=
  [ErrorStatus.ok, .initFailed, .timeout, .invalidParam, .busy, .overrun, .framing, .parity, .noise,
      .hardwareError].map (fun e => e.code.toNat) = [0, 1, 2, 3, 4, 5, 6, 7, 8, 9]
    ∧ (∀ e f : ErrorStatus, e.code = f.code → e = f)
    ∧ (∀ e : ErrorStatus, e.code.toNat < 10)

/-! ### The step -/

/-- The step runs the handler while it is busy (60 R236, R237), else what the turn says (turns and port are the model's
own, log entries 8 and 12): a dispatch (R234), the next
event of the operation in progress (40_common R120(2)), the acceptance of the command at the port's head (R120(1)), or
nothing (70 R274). -/
def Obligations.StepRunsDecodedInstruction : Prop :=
  ∀ s : State,
    (s.q.busy = true → step s = exec .irqHandler s)
    ∧ (s.q.busy = false → nextTurn s = .dispatch → step s = exec .irqHandler (takeTurn s))
    ∧ (s.q.busy = false → nextTurn s = .main → s.m.busy = true → ∀ i, running s = some i →
        step s = exec i (takeTurn s))
    ∧ (s.q.busy = false → nextTurn s = .main → s.m.busy = false → ∀ o rest i, s.port = o :: rest →
        decode o = .ok i → step s = exec i { takeTurn s with port := rest })
    ∧ (s.q.busy = false → nextTurn s = .main → s.m.busy = false → s.port = [] → step s = .next (takeTurn s))

/-- The placed word of the opcode table is what the very next step runs (log entry 12). -/
def Obligations.FetchWordRunsNext : Prop :=
  ∀ (s : State) (nbits w : Nat) (i : Instr), decodeTableWord nbits w = some i →
    step (s.withFetchWord nbits w) =
      exec i { s with
        m := { s.m with busy := false, phase := .idle, kont := none }
        q := { s.q with busy := false, phase := .idle, kont := none } }

/-! ### Reset and configuration -/

/-- 70 R260: `dev_state` Disabled, both contexts idle, `RESULT`, `OUT_CHAR` and `op_cfg` without value, no transaction
and no time sample performed. (The latches' and scratch registers' values are the model's, log entry 9, and not stated.) -/
def Obligations.ResetLeavesBlockIdle : Prop :=
  State.reset.devState = .disabled ∧ State.reset.m.busy = false ∧ State.reset.q.busy = false
    ∧ State.reset.m.phase = .idle ∧ State.reset.q.phase = .idle
    ∧ State.reset.result = none ∧ State.reset.outChar = none ∧ State.reset.opCfg = none
    ∧ State.reset.history = [] ∧ State.reset.results = []

/-- The invariant holds at reset. Its clauses nullString and index hold there by the values the model chose for `m.p`,
`m.str` and `m.idx` at reset, to which R22 and R260 give none: the model's choice, log entry 9. The other clauses rest on
R260's own values. -/
def Obligations.ResetMeetsInvariant : Prop := Inv State.reset

/-- The configuration at reset meets the constraints of 00_scope R6, whatever the OPEN parameters are. (Which layout it
is rests on log entries 4 and 5, and is not stated.) -/
def Obligations.ResetConfigurationIsLegal : Prop := State.reset.cfg.wellFormed = true

/-- 10_state R23: a read of an unwritten `RESULT` or `OUT_CHAR` is a fault, a read of a written one gives its value. -/
def Obligations.UnwrittenResultReadsFault : Prop :=
  ∀ s : State,
    (s.result = none → s.readResult = .error .resultUnwritten)
    ∧ (∀ v, s.result = some v → s.readResult = .ok v)
    ∧ (s.outChar = none → s.readOutChar = .error .outCharUnwritten)
    ∧ (∀ b, s.outChar = some b → s.readOutChar = .ok b)

/-- 20_memory R60, R64: for a legal configuration no register's address wraps, and every one is aligned and inside the
block. -/
def Obligations.RegisterAddressesAligned : Prop :=
  ∀ (k : Cfg) (r : Reg), k.wellFormed = true →
    (Cfg.addr k r).toNat = k.uartBase.toNat + r.offset.toNat ∧ (Cfg.addr k r).toNat % 4 = 0
      ∧ (Cfg.addr k r).toNat ≤ k.uartBase.toNat + 0x44

/-! ### Values -/

/-- 40_common R122, 60 R226 to R229: the priority Overrun, Framing, Parity, Noise; Ok exactly when no bit of `RSR_ANY`
is set; bits outside `RSR_ANY` do not count. -/
def Obligations.StatusDecodePriority : Prop :=
  ∀ (k : Cfg) (s : Word),
    (decodeRxStatus k s = .overrun ↔ anySet s k.rsrOe = true)
    ∧ (decodeRxStatus k s = .framing ↔ anySet s k.rsrOe = false ∧ anySet s k.rsrFe = true)
    ∧ (decodeRxStatus k s = .parity ↔ anySet s k.rsrOe = false ∧ anySet s k.rsrFe = false ∧ anySet s k.rsrPe = true)
    ∧ (decodeRxStatus k s = .noise ↔
        anySet s k.rsrOe = false ∧ anySet s k.rsrFe = false ∧ anySet s k.rsrPe = false ∧ anySet s k.rsrBe = true)
    ∧ (decodeRxStatus k s = .ok ↔ anySet s k.rsrAny = false)
    ∧ decodeRxStatus k (s &&& k.rsrAny) = decodeRxStatus k s

/-- 40_common R121, R124(c): elapsed time is the difference modulo `2^32`, compared unsigned and strictly; with the
budget `0xFFFF_FFFF` the comparison is never true. -/
def Obligations.DeadlineIsStrictAndModular : Prop :=
  ∀ now tStart budget : Word,
    (deadlinePassed now tStart budget = true ↔
      budget.toNat < (now.toNat + (2 ^ 32 - tStart.toNat)) % 2 ^ 32)
    ∧ deadlinePassed now tStart 0xFFFFFFFF#32 = false

/-- 41_init R142, 40_common R124(a), (b): no bit of the divisor is dropped; the fraction is below 64; the divisor is zero
exactly when `CLOCK_HZ < 16 * baud_rate`, the product exact. -/
def Obligations.DivisorSplitsExactly : Prop :=
  ∀ (k : Cfg) (baud : Word), k.wellFormed = true → baud ≠ 0#32 →
    divisor k baud = k.clockHz / (16 * baud.toNat) ∧ divisor k baud < 2 ^ 28
    ∧ (ibrdValue k baud).toNat * 64 + (fbrdValue k baud).toNat = divisor k baud
    ∧ (fbrdValue k baud).toNat < 64
    ∧ (divisor k baud = 0 ↔ k.clockHz < 16 * baud.toNat)

/-! ### Events, one by one -/

/-- 40_common R120(1), R126 (the IDLE rows): an idle context accepts each operation; the fields and the payload are
copied into the latches, and the sequence begins where the table says. Nothing else changes. -/
def Obligations.IdleContextAccepts : Prop :=
  ∀ s : State,
    (bothIdle s →
      (∀ baud, exec (.init baud) s = .next { s with
        latch := { op := 1#4, p := false, c := 0#8, arg := baud, str := [], idx := 0 }
        m := { s.m with busy := true, phase := if baud = 0#32 then .done .invalidParam else .iWCtrl0 } })
      ∧ (∀ c t, exec (.sendChar c t) s = .next { s with
        latch := { op := 2#4, p := false, c := c, arg := t, str := [], idx := 0 }
        m := { s.m with busy := true, kont := some .sendChar, phase := if t = 0#32 then .tRFlag else .tStart } })
      ∧ (∀ t, exec (.getChar true t) s = .next { s with
        latch := { op := 3#4, p := true, c := 0#8, arg := t, str := [], idx := 0 }
        m := { s.m with busy := true, kont := some .getChar, phase := if t = 0#32 then .gRFlag else .gStart } })
      ∧ (∀ t, exec (.getChar false t) s = .next { s with
        latch := { op := 3#4, p := false, c := 0#8, arg := t, str := [], idx := 0 }
        m := { s.m with busy := true, phase := .done .invalidParam } })
      ∧ (∀ b rest t, exec (.sendString true (b :: rest) t) s = .next { s with
        latch := { op := 4#4, p := true, c := b, arg := t, str := b :: rest, idx := 0 }
        m := { s.m with busy := true, kont := some .sendString, phase := if t = 0#32 then .tRFlag else .tStart } })
      ∧ (∀ t, exec (.sendString true [] t) s = .next { s with
        latch := { op := 4#4, p := true, c := 0#8, arg := t, str := [], idx := 0 }
        m := { s.m with busy := true, phase := .done .ok } })
      ∧ (∀ str t, exec (.sendString false str t) s = .next { s with
        latch := { op := 4#4, p := false, c := 0#8, arg := t, str := [], idx := 0 }
        m := { s.m with busy := true, phase := .done .invalidParam } })
      ∧ exec .enableInterrupts s = .next { s with
        latch := { op := 5#4, p := false, c := 0#8, arg := 0#32, str := [], idx := 0 }
        m := { s.m with busy := true, phase := if s.cfg.imscUpdate = .rmw then .mRImsc else .mWImsc } }
      ∧ exec .disableInterrupts s = .next { s with
        latch := { op := 6#4, p := false, c := 0#8, arg := 0#32, str := [], idx := 0 }
        m := { s.m with busy := true, phase := if s.cfg.imscUpdate = .rmw then .mRImsc else .mWImsc } }
      ∧ exec .clearErrors s = .next { s with
        latch := { op := 7#4, p := false, c := 0#8, arg := 0#32, str := [], idx := 0 }
        m := { s.m with busy := true, phase := .eWEcr } }
      ∧ exec .getErrorStatus s = .next { s with
        latch := { op := 8#4, p := false, c := 0#8, arg := 0#32, str := [], idx := 0 }
        m := { s.m with busy := true, phase := .qRRsr } })
    ∧ (s.q.busy = false →
      exec .irqHandler s = .next { s with q := { s.q with busy := true, phase := .hRMis } })

/-- 41_init R140, 40_common R126: each event of a running `INIT baud` is a next state, with the transaction, the value
written, `dev_state`, `op_cfg` and the successor the rules give, and nothing else changed. -/
def Obligations.InitEventsFollowTable : Prop :=
  ∀ (s : State) (baud : Word), s.q.busy = false → s.m.busy = true → running s = some (.init baud) →
    (s.m.phase = .iWCtrl0 → exec (.init baud) s = .next { s with
      history := s.history ++ [.write .main (s.cfg.uartBase + 0x30#32) 0#32]
      devState := .configuring
      m := { s.m with phase := .iWIcr } })
    ∧ (s.m.phase = .iWIcr → s.cfg.clockHz / (16 * baud.toNat) = 0 → exec (.init baud) s = .next { s with
      history := s.history ++ [.write .main (s.cfg.uartBase + 0x44#32) 0xFFFFFFFF#32]
      devState := .disabled
      m := { s.m with phase := .done .invalidParam } })
    ∧ (s.m.phase = .iWIcr → s.cfg.clockHz / (16 * baud.toNat) ≠ 0 → exec (.init baud) s = .next { s with
      history := s.history ++ [.write .main (s.cfg.uartBase + 0x44#32) 0xFFFFFFFF#32]
      opCfg := some
        { baudRate := baud
          divisor := s.cfg.clockHz / (16 * baud.toNat)
          ibrd := BitVec.ofNat 32 (s.cfg.clockHz / (16 * baud.toNat) / 64)
          fbrd := BitVec.ofNat 32 (s.cfg.clockHz / (16 * baud.toNat) % 64) }
      m := { s.m with phase := .iWIbrd } })
    ∧ (s.m.phase = .iWIbrd → exec (.init baud) s = .next { s with
      history := s.history ++
        [.write .main (s.cfg.uartBase + 0x24#32) (BitVec.ofNat 32 (s.cfg.clockHz / (16 * baud.toNat) / 64))]
      m := { s.m with phase := .iWFbrd } })
    ∧ (s.m.phase = .iWFbrd → exec (.init baud) s = .next { s with
      history := s.history ++
        [.write .main (s.cfg.uartBase + 0x28#32) (BitVec.ofNat 32 (s.cfg.clockHz / (16 * baud.toNat) % 64))]
      m := { s.m with phase := .iWLcr } })
    ∧ (s.m.phase = .iWLcr → exec (.init baud) s = .next { s with
      history := s.history ++ [.write .main (s.cfg.uartBase + 0x2C#32) s.cfg.lcr8n1]
      m := { s.m with phase := .iWCtrlEn } })
    ∧ (s.m.phase = .iWCtrlEn → exec (.init baud) s = .next { s with
      history := s.history ++
        [.write .main (s.cfg.uartBase + 0x30#32) (s.cfg.ctrlEn ||| s.cfg.ctrlTxe ||| s.cfg.ctrlRxe)]
      m := { s.m with phase := .iRCtrl } })
    ∧ (s.m.phase = .iRCtrl → ∀ v, v = busAnswer .main .ctrl s → exec (.init baud) s = .next { s with
      history := s.history ++ [.read .main (s.cfg.uartBase + 0x30#32) v]
      busAnswers := s.busAnswers.tail
      devState := if v &&& s.cfg.ctrlEn = 0#32 then .disabled else .enabled
      m := { s.m with
        tmp := v, phase := if v &&& s.cfg.ctrlEn = 0#32 then .done .initFailed else .done .ok } })

/-- 42_send_char R160, 44_send_string R180, 40_common R121, R126: each event of the poll and of the status check, alike
for `SEND_CHAR` and for a character of `SEND_STRING`. -/
def Obligations.SendPollEventsFollowTable : Prop :=
  ∀ (s : State) (i : Instr) (t : Word), s.q.busy = false → s.m.busy = true → running s = some i →
    ((∃ c, i = .sendChar c t) ∨ (∃ str, i = .sendString true str t)) →
    (s.m.phase = .tStart → ∀ v, v = clockAnswer .main s → exec i s = .next { s with
      history := s.history ++ [.now .main v]
      clockAnswers := s.clockAnswers.tail
      m := { s.m with tStart := v, phase := .tRFlag } })
    ∧ (s.m.phase = .tRFlag → ∀ v, v = busAnswer .main .flag s → exec i s = .next { s with
      history := s.history ++ [.read .main (s.cfg.uartBase + 0x18#32) v]
      busAnswers := s.busAnswers.tail
      m := { s.m with
        tmp := v
        phase := if v &&& s.cfg.flagTxff = 0#32 then .tRRsr else if t = 0#32 then .tRFlag else .tNow } })
    ∧ (s.m.phase = .tNow → ∀ v, v = clockAnswer .main s → (v - s.m.tStart).toNat ≤ t.toNat →
      exec i s = .next { s with
        history := s.history ++ [.now .main v]
        clockAnswers := s.clockAnswers.tail
        m := { s.m with phase := .tRFlag } })
    ∧ (s.m.phase = .tRRsr → ∀ v, v = busAnswer .main .rsrEcr s → v &&& s.cfg.rsrAny = 0#32 →
      exec i s = .next { s with
        history := s.history ++ [.read .main (s.cfg.uartBase + 0x04#32) v]
        busAnswers := s.busAnswers.tail
        m := { s.m with tmp := v, phase := .tWData } })

/-- 42_send_char R160, 40_common R126 (`TxEnd`, K_SEND_CHAR): the events that end `SEND_CHAR`'s sequence: the timeout,
the status error, and the write of the character. -/
def Obligations.SendCharEndEventsFollowTable : Prop :=
  ∀ (s : State) (c : Byte) (t : Word), s.q.busy = false → s.m.busy = true → running s = some (.sendChar c t) →
    s.m.kont = some .sendChar →
    (s.m.phase = .tNow → ∀ v, v = clockAnswer .main s → t.toNat < (v - s.m.tStart).toNat →
      exec (.sendChar c t) s = .next { s with
        history := s.history ++ [.now .main v]
        clockAnswers := s.clockAnswers.tail
        m := { s.m with phase := .done .timeout } })
    ∧ (s.m.phase = .tRRsr → ∀ v, v = busAnswer .main .rsrEcr s → v &&& s.cfg.rsrAny ≠ 0#32 →
      exec (.sendChar c t) s = .next { s with
        history := s.history ++ [.read .main (s.cfg.uartBase + 0x04#32) v]
        busAnswers := s.busAnswers.tail
        m := { s.m with tmp := v, phase := .done .hardwareError } })
    ∧ (s.m.phase = .tWData → exec (.sendChar c t) s = .next { s with
        history := s.history ++ [.write .main s.cfg.uartBase (c.setWidth 32)]
        m := { s.m with phase := .done .ok } })

/-- 44_send_string R180, 40_common R126 (`TxEnd`, K_SEND_STRING): a failing character ends the operation with its code
unchanged; a sent one is followed by the next, whose own poll begins (R182), or by completion after the last. -/
def Obligations.SendStringEndEventsFollowTable : Prop :=
  ∀ (s : State) (str : List Byte) (t : Word), s.q.busy = false → s.m.busy = true →
    running s = some (.sendString true str t) → s.m.kont = some .sendString →
    (s.m.phase = .tNow → ∀ v, v = clockAnswer .main s → t.toNat < (v - s.m.tStart).toNat →
      exec (.sendString true str t) s = .next { s with
        history := s.history ++ [.now .main v]
        clockAnswers := s.clockAnswers.tail
        m := { s.m with phase := .done .timeout } })
    ∧ (s.m.phase = .tRRsr → ∀ v, v = busAnswer .main .rsrEcr s → v &&& s.cfg.rsrAny ≠ 0#32 →
      exec (.sendString true str t) s = .next { s with
        history := s.history ++ [.read .main (s.cfg.uartBase + 0x04#32) v]
        busAnswers := s.busAnswers.tail
        m := { s.m with tmp := v, phase := .done .hardwareError } })
    ∧ (s.m.phase = .tWData → s.latch.idx + 1 = str.length → exec (.sendString true str t) s = .next { s with
        history := s.history ++ [.write .main s.cfg.uartBase (s.latch.c.setWidth 32)]
        latch := { s.latch with idx := s.latch.idx + 1 }
        m := { s.m with phase := .done .ok } })
    ∧ (s.m.phase = .tWData → ∀ b, str[s.latch.idx + 1]? = some b →
      exec (.sendString true str t) s = .next { s with
        history := s.history ++ [.write .main s.cfg.uartBase (s.latch.c.setWidth 32)]
        latch := { s.latch with idx := s.latch.idx + 1, c := b }
        m := { s.m with phase := if t = 0#32 then .tRFlag else .tStart } })

/-- 43_get_char R170, 40_common R121, R126: each event of a running `GET_CHAR`. -/
def Obligations.GetCharEventsFollowTable : Prop :=
  ∀ (s : State) (t : Word), s.q.busy = false → s.m.busy = true → running s = some (.getChar true t) →
    s.m.kont = some .getChar →
    (s.m.phase = .gStart → ∀ v, v = clockAnswer .main s → exec (.getChar true t) s = .next { s with
      history := s.history ++ [.now .main v]
      clockAnswers := s.clockAnswers.tail
      m := { s.m with tStart := v, phase := .gRFlag } })
    ∧ (s.m.phase = .gRFlag → ∀ v, v = busAnswer .main .flag s → exec (.getChar true t) s = .next { s with
      history := s.history ++ [.read .main (s.cfg.uartBase + 0x18#32) v]
      busAnswers := s.busAnswers.tail
      m := { s.m with
        tmp := v
        phase := if v &&& s.cfg.flagRxfe = 0#32 then .gRRsr else if t = 0#32 then .gRFlag else .gNow } })
    ∧ (s.m.phase = .gNow → ∀ v, v = clockAnswer .main s → exec (.getChar true t) s = .next { s with
      history := s.history ++ [.now .main v]
      clockAnswers := s.clockAnswers.tail
      m := { s.m with phase := if t.toNat < (v - s.m.tStart).toNat then .done .timeout else .gRFlag } })
    ∧ (s.m.phase = .gRRsr → ∀ v, v = busAnswer .main .rsrEcr s → exec (.getChar true t) s = .next { s with
      history := s.history ++ [.read .main (s.cfg.uartBase + 0x04#32) v]
      busAnswers := s.busAnswers.tail
      m := { s.m with
        tmp := v
        phase := if decodeRxStatus s.cfg v = .ok then .gRData else .done (decodeRxStatus s.cfg v) } })
    ∧ (s.m.phase = .gRData → ∀ v, v = busAnswer .main .data s → exec (.getChar true t) s = .next { s with
      history := s.history ++ [.read .main s.cfg.uartBase v]
      busAnswers := s.busAnswers.tail
      outChar := some (v.setWidth 8)
      m := { s.m with tmp := v, phase := .done .ok } })

/-- 45 R190, R191, 46 R200, R201, 40_common R126: each event of the operations with no operands. -/
def Obligations.MaskAndErrorEventsFollowTable : Prop :=
  ∀ (s : State) (i : Instr), s.q.busy = false → s.m.busy = true → running s = some i →
    (i = .enableInterrupts ∨ i = .disableInterrupts → s.m.phase = .mRImsc → ∀ v, v = busAnswer .main .imsc s →
      exec i s = .next { s with
        history := s.history ++ [.read .main (s.cfg.uartBase + 0x38#32) v]
        busAnswers := s.busAnswers.tail
        m := { s.m with tmp := v, phase := .mWImsc } })
    ∧ (i = .enableInterrupts → s.m.phase = .mWImsc → exec i s = .next { s with
        history := s.history ++ [.write .main (s.cfg.uartBase + 0x38#32)
          (if s.cfg.imscUpdate = .rmw then s.m.tmp ||| s.cfg.intRx else s.cfg.intRx)]
        m := { s.m with phase := .done .ok } })
    ∧ (i = .disableInterrupts → s.m.phase = .mWImsc → exec i s = .next { s with
        history := s.history ++ [.write .main (s.cfg.uartBase + 0x38#32)
          (if s.cfg.imscUpdate = .rmw then s.m.tmp &&& ~~~s.cfg.intRx else 0#32)]
        m := { s.m with phase := .done .ok } })
    ∧ (i = .clearErrors → s.m.phase = .eWEcr → exec i s = .next { s with
        history := s.history ++ [.write .main (s.cfg.uartBase + 0x04#32) 0xFFFFFFFF#32]
        m := { s.m with phase := .done .ok } })
    ∧ (i = .getErrorStatus → s.m.phase = .qRRsr → ∀ v, v = busAnswer .main .rsrEcr s → exec i s = .next { s with
        history := s.history ++ [.read .main (s.cfg.uartBase + 0x04#32) v]
        busAnswers := s.busAnswers.tail
        m := { s.m with tmp := v, phase := .done (decodeRxStatus s.cfg v) } })

/-- 40_common R120(4), 30_encoding R98: the completion of every main-context operation writes `RESULT`, makes the
context idle, and reports once; `OUT_CHAR` is reported for `GET_CHAR` returning Ok alone; `IRQ_HANDLER` produces no
result at all. -/
def Obligations.CompletionReports : Prop :=
  (∀ (s : State) (i : Instr) (e : ErrorStatus), s.q.busy = false → s.m.busy = true → running s = some i →
    s.m.phase = .done e →
    ∃ k, exec i s = .next { s with
      result := some e.code
      results := s.results ++
        [{ code := e.code, outChar := if s.latch.op = 3#4 ∧ e = .ok then s.outChar else none }]
      m := { s.m with busy := false, phase := .idle, kont := k } })
  ∧ ∀ s t : State, exec .irqHandler s = .next t → t.result = s.result ∧ t.results = s.results

/-- 47_interrupt_handler R210, 40_common R126: the events of the handler's own, the ends of its two inner sequences, and
the return (60 R238), which clears `kont` (log entry 11). The codes of the inner sequences are discarded. -/
def Obligations.HandlerEventsFollowTable : Prop :=
  ∀ s : State, s.q.busy = true →
    (s.q.phase = .hRMis → ∀ v, v = busAnswer .irq .mis s → v &&& s.cfg.intRx = 0#32 →
      exec .irqHandler s = .next { s with
        history := s.history ++ [.read .irq (s.cfg.uartBase + 0x40#32) v]
        busAnswers := s.busAnswers.tail
        q := { s.q with tmp := v, phase := .hDone } })
    ∧ (s.q.phase = .hRMis → ∀ v, v = busAnswer .irq .mis s → v &&& s.cfg.intRx ≠ 0#32 →
      exec .irqHandler s = .next { s with
        history := s.history ++ [.read .irq (s.cfg.uartBase + 0x40#32) v]
        busAnswers := s.busAnswers.tail
        q := { s.q with
          tmp := v
          kont := some .handler
          phase := if s.cfg.defaultTimeoutMs = 0#32 then .gRFlag else .gStart } })
    ∧ (s.q.phase = .gRRsr → s.q.kont = some .handler → ∀ v, v = busAnswer .irq .rsrEcr s →
      exec .irqHandler s = .next { s with
        history := s.history ++ [.read .irq (s.cfg.uartBase + 0x04#32) v]
        busAnswers := s.busAnswers.tail
        q := { s.q with tmp := v, phase := if decodeRxStatus s.cfg v = .ok then .gRData else .hWIcr } })
    ∧ (s.q.phase = .gRData → s.q.kont = some .handler → ∀ v, v = busAnswer .irq .data s →
      exec .irqHandler s = .next { s with
        history := s.history ++ [.read .irq s.cfg.uartBase v]
        busAnswers := s.busAnswers.tail
        qChar := v.setWidth 8
        q := { s.q with
          tmp := v, phase := if s.cfg.defaultTimeoutMs = 0#32 then .tRFlag else .tStart } })
    ∧ (s.q.phase = .tRRsr → s.q.kont = some .handler → ∀ v, v = busAnswer .irq .rsrEcr s →
      exec .irqHandler s = .next { s with
        history := s.history ++ [.read .irq (s.cfg.uartBase + 0x04#32) v]
        busAnswers := s.busAnswers.tail
        q := { s.q with tmp := v, phase := if v &&& s.cfg.rsrAny = 0#32 then .tWData else .hWIcr } })
    ∧ (s.q.phase = .tWData → s.q.kont = some .handler → exec .irqHandler s = .next { s with
        history := s.history ++ [.write .irq s.cfg.uartBase (s.qChar.setWidth 32)]
        q := { s.q with phase := .hWIcr } })
    ∧ (s.q.phase = .hWIcr → exec .irqHandler s = .next { s with
        history := s.history ++ [.write .irq (s.cfg.uartBase + 0x44#32) s.cfg.intRx]
        q := { s.q with phase := .hDone } })
    ∧ (s.q.phase = .hDone → exec .irqHandler s = .next { s with
        q := { s.q with busy := false, phase := .idle, kont := none } })

/-- 47_interrupt_handler R213, 40_common R121: the handler polls like any other caller, with the budget
`DEFAULT_TIMEOUT_MS`. -/
def Obligations.HandlerPollEventsFollowTable : Prop :=
  ∀ s : State, s.q.busy = true → s.q.kont = some .handler →
    (s.q.phase = .gStart ∨ s.q.phase = .tStart → ∀ v, v = clockAnswer .irq s → exec .irqHandler s = .next { s with
      history := s.history ++ [.now .irq v]
      clockAnswers := s.clockAnswers.tail
      q := { s.q with tStart := v, phase := if s.q.phase = .gStart then .gRFlag else .tRFlag } })
    ∧ (s.q.phase = .gRFlag → ∀ v, v = busAnswer .irq .flag s → exec .irqHandler s = .next { s with
      history := s.history ++ [.read .irq (s.cfg.uartBase + 0x18#32) v]
      busAnswers := s.busAnswers.tail
      q := { s.q with
        tmp := v
        phase := if v &&& s.cfg.flagRxfe = 0#32 then .gRRsr
          else if s.cfg.defaultTimeoutMs = 0#32 then .gRFlag else .gNow } })
    ∧ (s.q.phase = .tRFlag → ∀ v, v = busAnswer .irq .flag s → exec .irqHandler s = .next { s with
      history := s.history ++ [.read .irq (s.cfg.uartBase + 0x18#32) v]
      busAnswers := s.busAnswers.tail
      q := { s.q with
        tmp := v
        phase := if v &&& s.cfg.flagTxff = 0#32 then .tRRsr
          else if s.cfg.defaultTimeoutMs = 0#32 then .tRFlag else .tNow } })
    ∧ (s.q.phase = .gNow ∨ s.q.phase = .tNow → ∀ v, v = clockAnswer .irq s → exec .irqHandler s = .next { s with
      history := s.history ++ [.now .irq v]
      clockAnswers := s.clockAnswers.tail
      q := { s.q with
        phase := if s.cfg.defaultTimeoutMs.toNat < (v - s.q.tStart).toNat then .hWIcr
          else if s.q.phase = .gNow then .gRFlag else .tRFlag } })

/-- 60 R236, 40_common R120, D21: while the handler runs no main-context operation makes an event, and a command offered
while another operation is in progress is not accepted: nothing changes (log entry 2). -/
def Obligations.BusyContextAcceptsNothing : Prop :=
  ∀ (s : State) (i : Instr), i.ctx = .main → i.wellFormed = true →
    (s.q.busy = true ∨ (s.m.busy = true ∧ running s ≠ some i)) → exec i s = .next s

/-! ### Whole operations -/

/-- 41_init R140: `INIT` completes as its pseudocode says, for every baud rate and every answer of the read-back. -/
def Obligations.InitRunsItsPseudocode : Prop :=
  ∀ (s : State) (baud : Word) (o : OpOut), bothIdle s →
    opSpec s.cfg (.init baud) s.busAnswers s.clockAnswers = some o → completesAs (.init baud) s o

/-- 42_send_char R160 with 40_common R121: `SEND_CHAR` completes as its pseudocode says, whatever number of flag reads
its poll takes. -/
def Obligations.SendCharRunsItsPseudocode : Prop :=
  ∀ (s : State) (c : Byte) (t : Word) (o : OpOut), bothIdle s →
    opSpec s.cfg (.sendChar c t) s.busAnswers s.clockAnswers = some o → completesAs (.sendChar c t) s o

/-- 43_get_char R170: `GET_CHAR` completes as its pseudocode says, for a present and for a null destination. -/
def Obligations.GetCharRunsItsPseudocode : Prop :=
  ∀ (s : State) (p : Bool) (t : Word) (o : OpOut), bothIdle s →
    opSpec s.cfg (.getChar p t) s.busAnswers s.clockAnswers = some o → completesAs (.getChar p t) s o

/-- 44_send_string R180: `SEND_STRING` completes as its pseudocode says, for a null, an empty and any other string. -/
def Obligations.SendStringRunsItsPseudocode : Prop :=
  ∀ (s : State) (p : Bool) (str : List Byte) (t : Word) (o : OpOut), bothIdle s →
    opSpec s.cfg (.sendString p str t) s.busAnswers s.clockAnswers = some o → completesAs (.sendString p str t) s o

/-- 45 R190, R191, 46 R200, R201: the operations with no operands complete as their pseudocode says. -/
def Obligations.MaskAndErrorOperationsRunTheirPseudocode : Prop :=
  ∀ (s : State) (i : Instr) (o : OpOut), bothIdle s →
    i ∈ [Instr.enableInterrupts, .disableInterrupts, .clearErrors, .getErrorStatus] →
    opSpec s.cfg i s.busAnswers s.clockAnswers = some o → completesAs i s o

/-- 47_interrupt_handler R210, 60 R237, R238: a handler run returns as its pseudocode says, dispatched in any state of
the main context, which it leaves exactly as it was. -/
def Obligations.HandlerRunsItsPseudocode : Prop :=
  ∀ (s : State) (o : HandlerOut), s.q.busy = false →
    handlerSpec s.cfg s.busAnswers s.clockAnswers = some o → handlerCompletesAs s o

/-- 40_common R121, R127, 93 U12: with `timeout_ms = 0` and a flag that never reads clear the operation never ends: after
any number of reads it is still polling, with no time sample and no result. -/
def Obligations.PollWithoutDeadlineNeverEnds : Prop :=
  ∀ (s : State) (c : Byte) (answers : List Word), bothIdle s → s.busAnswers = answers →
    (∀ v ∈ answers, anySet v s.cfg.flagTxff = true) →
    ∃ t, execN (.sendChar c 0#32) (answers.length + 1) s = .next t
      ∧ t.m.busy = true ∧ t.m.phase = .tRFlag ∧ t.result = s.result ∧ t.results = s.results
      ∧ t.history = s.history ++ answers.map (fun v => .read .main (Cfg.addr s.cfg .flag) v)

/-- 40_common R121, 60 R240, 70 R264(c): with a clock that always answers the same value (the source's stub) no budget
ever expires: from the start of any poll of `SEND_CHAR`, of a character of `SEND_STRING`, of `GET_CHAR`, and of the
handler's receive and echo, after any number of failed flag reads the poll still goes on, with no result. -/
def Obligations.PollWithStoppedClockNeverEnds : Prop :=
  ∀ (s : State) (now : Word) (answers : List Word), s.busAnswers = answers →
    s.clockAnswers = List.replicate (answers.length + 1) now →
    (∀ i, s.q.busy = false → s.m.busy = true → running s = some i → s.latch.arg ≠ 0#32 →
      (i.op = 2#4 ∨ i.op = 4#4 → s.m.phase = .tStart → (∀ v ∈ answers, anySet v s.cfg.flagTxff = true) →
        ∃ u, execN i (2 * answers.length + 1) s = .next u ∧ u.m.busy = true ∧ u.m.phase = .tRFlag
          ∧ u.latch = s.latch ∧ u.result = s.result ∧ u.results = s.results ∧ u.busAnswers = [] ∧ u.clockAnswers = [])
      ∧ (i.op = 3#4 → s.m.phase = .gStart → (∀ v ∈ answers, anySet v s.cfg.flagRxfe = true) →
        ∃ u, execN i (2 * answers.length + 1) s = .next u ∧ u.m.busy = true ∧ u.m.phase = .gRFlag
          ∧ u.latch = s.latch ∧ u.result = s.result ∧ u.results = s.results ∧ u.outChar = s.outChar
          ∧ u.busAnswers = [] ∧ u.clockAnswers = []))
    ∧ (s.q.busy = true → s.cfg.defaultTimeoutMs ≠ 0#32 →
      (s.q.phase = .tStart → (∀ v ∈ answers, anySet v s.cfg.flagTxff = true) →
        ∃ u, execN .irqHandler (2 * answers.length + 1) s = .next u ∧ u.q.busy = true ∧ u.q.phase = .tRFlag
          ∧ u.busAnswers = [] ∧ u.clockAnswers = [])
      ∧ (s.q.phase = .gStart → (∀ v ∈ answers, anySet v s.cfg.flagRxfe = true) →
        ∃ u, execN .irqHandler (2 * answers.length + 1) s = .next u ∧ u.q.busy = true ∧ u.q.phase = .gRFlag
          ∧ u.busAnswers = [] ∧ u.clockAnswers = []))

/-! ### Invariants and whole-machine rules -/

/-- Every step keeps the invariant of the sequencers. -/
def Obligations.StepKeepsInvariant : Prop :=
  ∀ s t : State, Inv s → step s = .next t → Inv t

/-- 60 R220, 20_memory R84: "no traps", and "whether the block has a next step never depends on the oracle": where the
invariant holds and the port offers no undecodable word, every step is a next state, whatever the answers. -/
def Obligations.EveryStepIsPossible : Prop :=
  ∀ (s : State) (bus clock : List Word), Inv s → (∀ o ∈ s.port.head?, ∃ i, decode o = .ok i) →
    ∃ t, step { s with busAnswers := bus, clockAnswers := clock } = .next t

/-- 20_memory R61, 10_state R28 to R41, R41: every transaction of the history is one of those the rules list; every step
keeps that, and the configuration. -/
def Obligations.TransactionsStayLegal : Prop :=
  ∀ s t : State, (∀ e ∈ s.history, legalEvent s.cfg e) → step s = .next t →
    t.cfg = s.cfg ∧ ∀ e ∈ t.history, legalEvent t.cfg e

/-- 00_scope R11, 20_memory R66: an event performs at most one transaction or time sample, of its own context, at the
end of the history. -/
def Obligations.OneTransactionPerEvent : Prop :=
  ∀ (i : Instr) (s t : State), exec i s = .next t →
    t.history = s.history ∨ ∃ e, t.history = s.history ++ [e]
      ∧ (∀ c a v, e = .read c a v → c = i.ctx) ∧ (∀ c a v, e = .write c a v → c = i.ctx)
      ∧ (∀ c v, e = .now c v → c = i.ctx)

/-- 10_state R21, R25: no operation but `INIT` writes `dev_state` or `op_cfg`, and nothing reads them: with other values
of them every operation makes the same event. -/
def Obligations.GhostsWrittenByInitReadByNothing : Prop :=
  ∀ (i : Instr) (s t : State), exec i s = .next t →
    ((∀ baud, i ≠ .init baud) → t.devState = s.devState ∧ t.opCfg = s.opCfg)
    ∧ ∀ (d : DevState) (o : Option OpCfg), ∃ u, exec i { s with devState := d, opCfg := o } = .next u
      ∧ { u with devState := t.devState, opCfg := t.opCfg } = t

/-- 20_memory R83: "the block itself reads the history never": where the oracle's answers are given, another history
gives the same event. -/
def Obligations.HistoryIsNeverRead : Prop :=
  ∀ (i : Instr) (s t : State) (h : List Event), s.busAnswers ≠ [] → s.clockAnswers ≠ [] → exec i s = .next t →
    ∃ es, t.history = s.history ++ es ∧ exec i { s with history := h } = .next { t with history := h ++ es }

/-- 60 R237, 47 R210: any number of events of handler runs leaves the main context's registers and latches, `RESULT`,
`OUT_CHAR`, the result port, `dev_state` and `op_cfg` exactly as they were. -/
def Obligations.HandlerLeavesMainContext : Prop :=
  ∀ (n : Nat) (s t : State), execN .irqHandler n s = .next t →
    t.m = s.m ∧ t.latch = s.latch ∧ t.result = s.result ∧ t.outChar = s.outChar ∧ t.results = s.results
      ∧ t.devState = s.devState ∧ t.opCfg = s.opCfg ∧ t.cfg = s.cfg ∧ t.port = s.port

/-- 10_state R23, 40_common R120: `RESULT` and the result port are written by the completion of a main-context operation
and by nothing else. -/
def Obligations.ResultWrittenByCompletionOnly : Prop :=
  ∀ (i : Instr) (s t : State), exec i s = .next t →
    (t.result = s.result ∧ t.results = s.results)
      ∨ ∃ e, i.ctx = .main ∧ s.m.phase = .done e ∧ t.result = some e.code ∧ t.m.busy = false

/-- 60 R225, R231: a completed operation reports a code its row of the matrix allows, and never Busy. -/
def Obligations.ReportedCodesFollowMatrix : Prop :=
  ∀ (s t : State), Inv s → step s = .next t →
    t.results = s.results
      ∨ ∃ e b, t.results = s.results ++ [⟨e.code, b⟩] ∧ mayReturn s.latch.op e = true ∧ e ≠ .busy

/-- 10_state R23, 43_get_char R173: `OUT_CHAR` changes only in the event in which `GET_CHAR` reads `DATA`, which ends it
with Ok, and it then holds bits `[7:0]` of the value read. -/
def Obligations.OutCharWrittenByDataReadOnly : Prop :=
  ∀ (i : Instr) (s t : State), exec i s = .next t → t.outChar ≠ s.outChar →
    ∃ v, i.op = 3#4 ∧ s.m.phase = .gRData ∧ t.history = s.history ++ [.read .main (Cfg.addr s.cfg .data) v]
      ∧ t.outChar = some (v.setWidth 8) ∧ t.m.phase = .done .ok

/-- 60 R223: Timeout is possible only with `timeout_ms != 0`, and the event that yields it is the deadline sample that
exceeds the budget. -/
def Obligations.TimeoutNeedsBudget : Prop :=
  ∀ (i : Instr) (s t : State), Inv s → exec i s = .next t → t.m.phase = .done .timeout →
    s.m.phase ≠ .done .timeout →
      s.latch.arg ≠ 0#32 ∧ (s.m.phase = .tNow ∨ s.m.phase = .gNow)
        ∧ ∃ v, t.history = s.history ++ [.now .main v] ∧ s.latch.arg.toNat < (v - s.m.tStart).toNat

/-- 42_send_char R163: `SEND_CHAR` writes no register but `DATA`, with bits `[31:8]` zero, never reads `DATA`, and the
write is the event that ends its sequence with Ok. -/
def Obligations.SendCharWritesDataExactlyOnOk : Prop :=
  ∀ (c : Byte) (b : Word) (s t : State), Inv s → s.q.busy = false → s.m.busy = true →
    running s = some (.sendChar c b) → exec (.sendChar c b) s = .next t →
    (∀ a v, t.history = s.history ++ [.write .main a v] →
      a = Cfg.addr s.cfg .data ∧ v = c.setWidth 32 ∧ t.m.phase = .done .ok)
    ∧ (∀ v, t.history ≠ s.history ++ [.read .main (Cfg.addr s.cfg .data) v])
    ∧ (t.m.phase = .done .ok → ∃ v, t.history = s.history ++ [.write .main (Cfg.addr s.cfg .data) v])

/-- 43_get_char R173: `GET_CHAR` performs no write. -/
def Obligations.GetCharNeverWrites : Prop :=
  ∀ (p : Bool) (b : Word) (s t : State) (a v : Word), exec (.getChar p b) s = .next t →
    t.history ≠ s.history ++ [.write .main a v]

/-- 41_init R144: `INIT` accesses `CTRL`, `ICR`, `IBRD`, `FBRD` and `LCR` only (no `IMSC`, `IFLS`, `RSR_ECR`, `DATA`,
`FLAG`), reads only `CTRL`, and samples no time. -/
def Obligations.InitTouchesNothingElse : Prop :=
  ∀ (baud : Word) (s t : State) (e : Event), exec (.init baud) s = .next t → t.history = s.history ++ [e] →
    (∃ r v, r ∈ [Reg.ctrl, .icr, .ibrd, .fbrd, .lcr] ∧ e = .write .main (Cfg.addr s.cfg r) v)
      ∨ ∃ v, e = .read .main (Cfg.addr s.cfg .ctrl) v

/-! ### Frames -/

/-- What an event of `INIT` leaves unchanged: the irq context, `OUT_CHAR`, `t_start`, the latches but at acceptance,
`kont` but at completion, the time source's answers, and every earlier event of the history. -/
def Obligations.FrameOfInit : Prop :=
  ∀ (baud : Word) (s t : State), exec (.init baud) s = .next t →
    t.cfg = s.cfg ∧ t.q = s.q ∧ t.qChar = s.qChar ∧ t.outChar = s.outChar ∧ t.m.tStart = s.m.tStart
      ∧ (s.m.busy = true → t.latch = s.latch) ∧ (t.m.busy = true → t.m.kont = s.m.kont)
      ∧ ((∀ e, s.m.phase ≠ .done e) → t.result = s.result ∧ t.results = s.results)
      ∧ (s.m.phase ≠ .iRCtrl → t.m.tmp = s.m.tmp ∧ t.busAnswers = s.busAnswers)
      ∧ t.clockAnswers = s.clockAnswers ∧ t.turns = s.turns ∧ t.turnCount = s.turnCount ∧ t.port = s.port
      ∧ s.history <+: t.history

/-- What an event of `SEND_CHAR` or `SEND_STRING` leaves unchanged: the irq context, `OUT_CHAR`, `dev_state`, `op_cfg`,
and, once accepted, every latch but `SEND_STRING`'s `m.c` and `m.idx`. -/
def Obligations.FrameOfSendOperations : Prop :=
  ∀ (i : Instr) (s t : State), exec i s = .next t → (i.op = 2#4 ∨ i.op = 4#4) →
    t.cfg = s.cfg ∧ t.q = s.q ∧ t.qChar = s.qChar ∧ t.outChar = s.outChar ∧ t.devState = s.devState
      ∧ t.opCfg = s.opCfg
      ∧ (s.m.busy = true → t.latch.op = s.latch.op ∧ t.latch.p = s.latch.p ∧ t.latch.arg = s.latch.arg
          ∧ t.latch.str = s.latch.str)
      ∧ (s.m.busy = true → s.m.kont = some .sendChar → t.latch = s.latch)
      ∧ ((∀ e, s.m.phase ≠ .done e) → t.result = s.result ∧ t.results = s.results)
      ∧ t.turns = s.turns ∧ t.turnCount = s.turnCount ∧ t.port = s.port ∧ s.history <+: t.history

/-- What an event of `GET_CHAR` leaves unchanged: the irq context, `dev_state`, `op_cfg`, the latches once accepted, and
`OUT_CHAR` but in the `DATA` read. -/
def Obligations.FrameOfGetChar : Prop :=
  ∀ (p : Bool) (b : Word) (s t : State), exec (.getChar p b) s = .next t →
    t.cfg = s.cfg ∧ t.q = s.q ∧ t.qChar = s.qChar ∧ t.devState = s.devState ∧ t.opCfg = s.opCfg
      ∧ (s.m.busy = true → t.latch = s.latch) ∧ (s.m.phase ≠ .gRData ∨ s.m.busy = false → t.outChar = s.outChar)
      ∧ ((∀ e, s.m.phase ≠ .done e) → t.result = s.result ∧ t.results = s.results)
      ∧ t.turns = s.turns ∧ t.turnCount = s.turnCount ∧ t.port = s.port ∧ s.history <+: t.history

/-- What an event of the operations with no operands leaves unchanged: the irq context, `OUT_CHAR`, `dev_state`,
`op_cfg`, `t_start`, the latches once accepted, and the time source's answers: they take no time sample. -/
def Obligations.FrameOfMaskAndErrorOperations : Prop :=
  ∀ (i : Instr) (s t : State), exec i s = .next t →
    i ∈ [Instr.enableInterrupts, .disableInterrupts, .clearErrors, .getErrorStatus] →
    t.cfg = s.cfg ∧ t.q = s.q ∧ t.qChar = s.qChar ∧ t.outChar = s.outChar ∧ t.devState = s.devState
      ∧ t.opCfg = s.opCfg ∧ t.m.tStart = s.m.tStart ∧ (s.m.busy = true → t.latch = s.latch)
      ∧ ((∀ e, s.m.phase ≠ .done e) → t.result = s.result ∧ t.results = s.results)
      ∧ t.clockAnswers = s.clockAnswers ∧ t.turns = s.turns ∧ t.turnCount = s.turnCount ∧ t.port = s.port
      ∧ s.history <+: t.history

/-- What an event of `IRQ_HANDLER` leaves unchanged: everything of the main context, `RESULT`, `OUT_CHAR`, the ghosts, the
inputs of the caller and of the dispatch, `q.char` but in the `DATA` read, and every earlier event of the history. -/
def Obligations.FrameOfIrqHandler : Prop :=
  ∀ s t : State, exec .irqHandler s = .next t →
    t.cfg = s.cfg ∧ t.m = s.m ∧ t.latch = s.latch ∧ t.result = s.result ∧ t.outChar = s.outChar
      ∧ t.results = s.results ∧ t.devState = s.devState ∧ t.opCfg = s.opCfg
      ∧ (s.q.phase ≠ .gRData ∨ s.q.busy = false → t.qChar = s.qChar)
      ∧ t.turns = s.turns ∧ t.turnCount = s.turnCount ∧ t.port = s.port ∧ s.history <+: t.history

/-! ### With premises on the peripheral, and runs of a string -/

/-- 46 R202 with 20_memory R72, R73: two `GET_ERROR_STATUS` in a row return the same, and neither writes, where the reads
show the recorded errors without side effect and no new error is recorded in between; `CLEAR_ERRORS` followed immediately
by `GET_ERROR_STATUS` returns Ok, where the write clears the recorded errors and no new one is recorded in between. The
premises are the model's form of R72 and R73 (log entry 25). -/
def Obligations.ErrorQueriesUnderPremises : Prop :=
  ∀ (s t u : State) (e1 e2 : Observed), bothIdle s → execN .getErrorStatus 3 t = .next u →
    observedRun s u [e1, e2] → e2.statusReadPure s.cfg →
    (execN .getErrorStatus 3 s = .next t → e1.statusReadPure s.cfg → e2.before = e1.after →
      u.result = t.result ∧ e1.event.isWrite = false ∧ e2.event.isWrite = false)
    ∧ (execN .clearErrors 3 s = .next t → e1.clearClears s.cfg → e2.before.errors = e1.after.errors →
      u.result = some ErrorStatus.ok.code)

/-- 45 R191 with 20_memory R76: a handler dispatched in any state later than `DISABLE_INTERRUPTS`'s write of `IMSC`, the
mask being still the value written, does nothing but read `MIS`. (That the state is a later one is not even needed.) The
premises are the model's form of R76 (log entry 25). -/
def Obligations.DisabledHandlerOnlyReadsMis : Prop :=
  ∀ (s t u : State) (w r : Observed),
    s.q.busy = false → s.m.busy = true → running s = some .disableInterrupts → s.m.phase = .mWImsc →
    exec .disableInterrupts s = .next t → observedRun s t [w] →
    u.q.busy = false → u.cfg = s.cfg →
    r.event = .read .irq (Cfg.addr u.cfg .mis) (busAnswer .irq .mis (enterHandler u)) →
    w.maskedIsRestricted s.cfg → r.maskedIsRestricted s.cfg → r.before.imsc = w.after.imsc →
    ∃ v, execN .irqHandler 3 u = .next v ∧ v.q.busy = false ∧ v.qChar = u.qChar ∧ v.history = u.history ++ [r.event]

/-- 41_init R145 with 20_memory R75: `INIT 115200` returns Ok for every `CLOCK_HZ >= 1_843_200` and a responsive
peripheral. The premise is the model's form of R75 (log entry 25). -/
def Obligations.InitSucceedsWhenResponsive : Prop :=
  ∀ (s t : State) (os : List Observed), bothIdle s → 1843200 ≤ s.cfg.clockHz → s.cfg.clockHz < 2 ^ 32 →
    execN (.init 115200#32) 9 s = .next t → observedRun s t os → (∀ o ∈ os, o.responsive s.cfg) →
    t.m.busy = false ∧ t.result = some ErrorStatus.ok.code ∧ t.devState = .enabled

/-- 70 R265 and 20_memory R74 with R72: once an error `m` is recorded it stays recorded until `CLEAR_ERRORS` writes
`RSR_ECR`, however the contexts interleave, and every later status read until then ends its transfer without touching
`DATA`: `SEND_CHAR` and `SEND_STRING` with HardwareError, `GET_CHAR` with the error decoded from what is recorded, which
has every bit of `m`, and the handler's receive and echo by going on to the interrupt clear. The premises are the model's
form of R72 and R74 (log entry 25). -/
def Obligations.RecordedErrorEndsTransfers : Prop :=
  ∀ (n : Nat) (s u t : State) (os : List Observed) (r : Observed) (m : Word),
    Inv s → stepN n s = .next u → observedRun s u os → step u = .next t → observedRun u t [r] →
    errorsStayRecorded s.cfg (os ++ [r]) → (∀ o ∈ os, ¬o.clearsErrors s.cfg) → r.statusReadPure s.cfg →
    m ≠ 0#32 → m &&& s.cfg.rsrAny = m → (∀ o ∈ (os ++ [r]).head?, o.before.errors &&& m = m) →
    r.before.errors &&& m = m
    ∧ (u.q.busy = false → u.m.phase = .tRRsr → t.m.phase = .done .hardwareError)
    ∧ (u.q.busy = false → u.m.phase = .gRRsr →
        decodeRxStatus s.cfg r.before.errors ≠ .ok
          ∧ t.m.phase = .done (decodeRxStatus s.cfg r.before.errors))
    ∧ (u.q.busy = true → u.q.phase = .gRRsr ∨ u.q.phase = .tRRsr → t.q.phase = .hWIcr)

/-- 44_send_string R180, R183: whenever `SEND_STRING` has just completed, in any uninterrupted run, its writes to `DATA`
are a beginning of the string, in order: all of it exactly when the code is Ok. -/
def Obligations.SendStringWritesPrefixInOrder : Prop :=
  ∀ (s t : State) (str : List Byte) (b : Word) (n : Nat) (r : Completion), bothIdle s →
    execN (.sendString true str b) n s = .next t → t.m.busy = false → t.results = s.results ++ [r] →
    ∃ j ≤ str.length, dataWrites s.cfg (t.history.drop s.history.length) = str.take j
      ∧ (r.code = ErrorStatus.ok.code ↔ j = str.length)

/-- 44_send_string R183 (X10): where every `FLAG` read has `FLAG_TXFF` clear and every `RSR_ECR` read has no bit of
`RSR_ANY` set, whatever their other bits (10_state R41), `SEND_STRING` returns Ok and the `DATA` writes are the string in
order. The reads alternate, the flag first (R180); the clock's answers do not matter. -/
def Obligations.ReadyStringIsSentWhole : Prop :=
  ∀ (s : State) (str : List Byte) (b : Word), bothIdle s → 2 * str.length ≤ s.busAnswers.length →
    (∀ j < str.length, ∀ v,
      (s.busAnswers[2 * j]? = some v → v &&& s.cfg.flagTxff = 0#32)
      ∧ (s.busAnswers[2 * j + 1]? = some v → v &&& s.cfg.rsrAny = 0#32)) →
    ∃ o, completesAs (.sendString true str b) s o ∧ o.code = .ok ∧ dataWrites s.cfg o.events = str
end

