-- ==== Sys2Proof/Laws/Encoding.lean ====
section
/-! SUPPORT. The fields of an assembled command word, and the assembly of a word's own fields (30_encoding R90). -/

namespace Sys2Proof

@[simp] theorem opField_assemble (op : Code) (p : Bool) (c : Byte) (arg : Word) :
    opField (assemble op p c arg) = op := by
  ext i hi
  simp [opField, assemble]
  grind

@[simp] theorem zField_assemble (op : Code) (p : Bool) (c : Byte) (arg : Word) :
    zField (assemble op p c arg) = 0#3 := by
  ext i hi
  simp [zField, assemble]
  grind

@[simp] theorem pField_assemble (op : Code) (p : Bool) (c : Byte) (arg : Word) :
    pField (assemble op p c arg) = BitVec.ofBool p := by
  ext i hi
  simp [pField, assemble]
  grind

@[simp] theorem cField_assemble (op : Code) (p : Bool) (c : Byte) (arg : Word) :
    cField (assemble op p c arg) = c := by
  ext i hi
  simp [cField, assemble]
  grind

@[simp] theorem argField_assemble (op : Code) (p : Bool) (c : Byte) (arg : Word) :
    argField (assemble op p c arg) = arg := by
  ext i hi
  simp [argField, assemble]
  grind

theorem ofBool_beq_one (x : BitVec 1) : BitVec.ofBool (x == 1#1) = x := by
  revert x; decide

theorem getLsbD_of_zField {w : CommandWord} (hz : zField w = 0#3) {i : Nat} (h1 : 41 ≤ i) (h2 : i < 44) :
    w.getLsbD i = false := by
  have := congrArg (fun v : BitVec 3 => v.getLsbD (i - 41)) hz
  simpa [zField, show i - 41 < 3 by omega, show 41 + (i - 41) = i by omega] using this

/-- A word whose `z` is zero is assembled from its own fields. -/
theorem assemble_fields (w : CommandWord) (hz : zField w = 0#3) :
    assemble (opField w) (pField w == 1#1) (cField w) (argField w) = w := by
  unfold assemble
  rw [ofBool_beq_one]
  ext i hi
  simp only [opField, pField, cField, argField]
  have hzi := fun h1 h2 => getLsbD_of_zField hz (i := i) h1 h2
  simp only [← BitVec.getLsbD_eq_getElem]
  by_cases h0 : i < 32
  · simp [h0, show i < 44 by omega, show i < 40 by omega, hi]
  by_cases h1 : i < 40
  · simp [h0, h1, show i < 44 by omega, show i - 32 < 8 by omega, show 32 + (i - 32) = i by omega, hi]
  by_cases h2 : i = 40
  · subst h2; simp
  by_cases h3 : i < 44
  · simp [h0, h1, h3, hzi (by omega) h3, show ¬ (i - 32 < 8) by omega, show i - 40 ≠ 0 by omega]
  · simp [h0, h1, h3, show ¬ (i - 32 < 8) by omega, show i - 40 ≠ 0 by omega, show i - 44 < 4 by omega,
      show 44 + (i - 44) = i by omega, hi]

/-- What the decoder accepts: the word is the operation's own, and a payload is taken where a string is present. -/
theorem decodeWord_ok {cw : CommandWord} {payload : List Byte} {i : Instr} (h : decodeWord cw payload = .ok i) :
    zField cw = 0#3 ∧ i.op = opField cw ∧ i.p = (pField cw == 1#1) ∧ i.c = cField cw ∧ i.arg = argField cw
      ∧ i.wellFormed = true := by
  have pz : ∀ {x : BitVec 1}, x = 0#1 → (x == 1#1) = false := by decide
  simp only [decodeWord, requireNoOperands, requireNoPC, requireNoC] at h
  split at h
  · rename_i hz
    have hop : ∀ n, (opField cw).toNat = n → opField cw = BitVec.ofNat 4 n := by
      intro n hn; rw [← hn]; simp
    split at h
    all_goals first
      | (cases h; done)
      | (rename_i hn
         have ho := hop _ hn
         repeat' split at h
         all_goals first
           | (cases h; done)
           | (cases h
              simp_all [Instr.op, Instr.p, Instr.c, Instr.arg, Instr.wellFormed]))
  · cases h

/-- The word of a decoded operation is its encoding. -/
theorem encode_of_decodeWord {cw : CommandWord} {payload : List Byte} {i : Instr}
    (h : decodeWord cw payload = .ok i) : encode i = cw := by
  obtain ⟨hz, h1, h2, h3, h4, -⟩ := decodeWord_ok h
  rw [encode, h1, h2, h3, h4, assemble_fields cw hz]

end Sys2Proof
end

