-- ==== Sys2Proof/Laws/State.lean ====
section
/-! SUPPORT. One lemma per field per update of the state, true by unfolding, so that no later proof unfolds a record
update. -/

namespace Sys2Proof.Machine

/-! ### `State.setSeq` and `State.seq` -/

@[simp] theorem setSeq_cfg (c : Ctx) (x : Seq) (s : State) : (s.setSeq c x).cfg = s.cfg := by cases c <;> rfl
@[simp] theorem setSeq_devState (c : Ctx) (x : Seq) (s : State) : (s.setSeq c x).devState = s.devState := by cases c <;> rfl
@[simp] theorem setSeq_opCfg (c : Ctx) (x : Seq) (s : State) : (s.setSeq c x).opCfg = s.opCfg := by cases c <;> rfl
@[simp] theorem setSeq_latch (c : Ctx) (x : Seq) (s : State) : (s.setSeq c x).latch = s.latch := by cases c <;> rfl
@[simp] theorem setSeq_qChar (c : Ctx) (x : Seq) (s : State) : (s.setSeq c x).qChar = s.qChar := by cases c <;> rfl
@[simp] theorem setSeq_result (c : Ctx) (x : Seq) (s : State) : (s.setSeq c x).result = s.result := by cases c <;> rfl
@[simp] theorem setSeq_outChar (c : Ctx) (x : Seq) (s : State) : (s.setSeq c x).outChar = s.outChar := by cases c <;> rfl
@[simp] theorem setSeq_history (c : Ctx) (x : Seq) (s : State) : (s.setSeq c x).history = s.history := by cases c <;> rfl
@[simp] theorem setSeq_results (c : Ctx) (x : Seq) (s : State) : (s.setSeq c x).results = s.results := by cases c <;> rfl
@[simp] theorem setSeq_busAnswers (c : Ctx) (x : Seq) (s : State) : (s.setSeq c x).busAnswers = s.busAnswers := by cases c <;> rfl
@[simp] theorem setSeq_clockAnswers (c : Ctx) (x : Seq) (s : State) : (s.setSeq c x).clockAnswers = s.clockAnswers := by cases c <;> rfl
@[simp] theorem setSeq_turns (c : Ctx) (x : Seq) (s : State) : (s.setSeq c x).turns = s.turns := by cases c <;> rfl
@[simp] theorem setSeq_turnCount (c : Ctx) (x : Seq) (s : State) : (s.setSeq c x).turnCount = s.turnCount := by cases c <;> rfl
@[simp] theorem setSeq_port (c : Ctx) (x : Seq) (s : State) : (s.setSeq c x).port = s.port := by cases c <;> rfl
@[simp] theorem setSeq_main_m (x : Seq) (s : State) : (s.setSeq .main x).m = x := rfl
@[simp] theorem setSeq_main_q (x : Seq) (s : State) : (s.setSeq .main x).q = s.q := rfl
@[simp] theorem setSeq_irq_m (x : Seq) (s : State) : (s.setSeq .irq x).m = s.m := rfl
@[simp] theorem setSeq_irq_q (x : Seq) (s : State) : (s.setSeq .irq x).q = x := rfl
@[simp] theorem seq_main (s : State) : s.seq .main = s.m := rfl
@[simp] theorem seq_irq (s : State) : s.seq .irq = s.q := rfl
@[simp] theorem seq_setSeq (c : Ctx) (x : Seq) (s : State) : (s.setSeq c x).seq c = x := by cases c <;> rfl

/-! ### `goto` -/

@[simp] theorem goto_cfg (c : Ctx) (p : Phase) (s : State) : (goto c p s).cfg = s.cfg := by cases c <;> rfl
@[simp] theorem goto_devState (c : Ctx) (p : Phase) (s : State) : (goto c p s).devState = s.devState := by cases c <;> rfl
@[simp] theorem goto_opCfg (c : Ctx) (p : Phase) (s : State) : (goto c p s).opCfg = s.opCfg := by cases c <;> rfl
@[simp] theorem goto_latch (c : Ctx) (p : Phase) (s : State) : (goto c p s).latch = s.latch := by cases c <;> rfl
@[simp] theorem goto_qChar (c : Ctx) (p : Phase) (s : State) : (goto c p s).qChar = s.qChar := by cases c <;> rfl
@[simp] theorem goto_result (c : Ctx) (p : Phase) (s : State) : (goto c p s).result = s.result := by cases c <;> rfl
@[simp] theorem goto_outChar (c : Ctx) (p : Phase) (s : State) : (goto c p s).outChar = s.outChar := by cases c <;> rfl
@[simp] theorem goto_history (c : Ctx) (p : Phase) (s : State) : (goto c p s).history = s.history := by cases c <;> rfl
@[simp] theorem goto_results (c : Ctx) (p : Phase) (s : State) : (goto c p s).results = s.results := by cases c <;> rfl
@[simp] theorem goto_busAnswers (c : Ctx) (p : Phase) (s : State) : (goto c p s).busAnswers = s.busAnswers := by cases c <;> rfl
@[simp] theorem goto_clockAnswers (c : Ctx) (p : Phase) (s : State) : (goto c p s).clockAnswers = s.clockAnswers := by cases c <;> rfl
@[simp] theorem goto_turns (c : Ctx) (p : Phase) (s : State) : (goto c p s).turns = s.turns := by cases c <;> rfl
@[simp] theorem goto_turnCount (c : Ctx) (p : Phase) (s : State) : (goto c p s).turnCount = s.turnCount := by cases c <;> rfl
@[simp] theorem goto_port (c : Ctx) (p : Phase) (s : State) : (goto c p s).port = s.port := by cases c <;> rfl
@[simp] theorem goto_main_m (p : Phase) (s : State) : (goto .main p s).m = { s.m with phase := p } := rfl
@[simp] theorem goto_main_q (p : Phase) (s : State) : (goto .main p s).q = s.q := rfl
@[simp] theorem goto_irq_m (p : Phase) (s : State) : (goto .irq p s).m = s.m := rfl
@[simp] theorem goto_irq_q (p : Phase) (s : State) : (goto .irq p s).q = { s.q with phase := p } := rfl

/-! ### `setKont` -/

@[simp] theorem setKont_cfg (c : Ctx) (k : Kont) (s : State) : (setKont c k s).cfg = s.cfg := by cases c <;> rfl
@[simp] theorem setKont_devState (c : Ctx) (k : Kont) (s : State) : (setKont c k s).devState = s.devState := by cases c <;> rfl
@[simp] theorem setKont_opCfg (c : Ctx) (k : Kont) (s : State) : (setKont c k s).opCfg = s.opCfg := by cases c <;> rfl
@[simp] theorem setKont_latch (c : Ctx) (k : Kont) (s : State) : (setKont c k s).latch = s.latch := by cases c <;> rfl
@[simp] theorem setKont_qChar (c : Ctx) (k : Kont) (s : State) : (setKont c k s).qChar = s.qChar := by cases c <;> rfl
@[simp] theorem setKont_result (c : Ctx) (k : Kont) (s : State) : (setKont c k s).result = s.result := by cases c <;> rfl
@[simp] theorem setKont_outChar (c : Ctx) (k : Kont) (s : State) : (setKont c k s).outChar = s.outChar := by cases c <;> rfl
@[simp] theorem setKont_history (c : Ctx) (k : Kont) (s : State) : (setKont c k s).history = s.history := by cases c <;> rfl
@[simp] theorem setKont_results (c : Ctx) (k : Kont) (s : State) : (setKont c k s).results = s.results := by cases c <;> rfl
@[simp] theorem setKont_busAnswers (c : Ctx) (k : Kont) (s : State) : (setKont c k s).busAnswers = s.busAnswers := by cases c <;> rfl
@[simp] theorem setKont_clockAnswers (c : Ctx) (k : Kont) (s : State) : (setKont c k s).clockAnswers = s.clockAnswers := by cases c <;> rfl
@[simp] theorem setKont_turns (c : Ctx) (k : Kont) (s : State) : (setKont c k s).turns = s.turns := by cases c <;> rfl
@[simp] theorem setKont_turnCount (c : Ctx) (k : Kont) (s : State) : (setKont c k s).turnCount = s.turnCount := by cases c <;> rfl
@[simp] theorem setKont_port (c : Ctx) (k : Kont) (s : State) : (setKont c k s).port = s.port := by cases c <;> rfl
@[simp] theorem setKont_main_m (k : Kont) (s : State) : (setKont .main k s).m = { s.m with kont := some k } := rfl
@[simp] theorem setKont_main_q (k : Kont) (s : State) : (setKont .main k s).q = s.q := rfl
@[simp] theorem setKont_irq_m (k : Kont) (s : State) : (setKont .irq k s).m = s.m := rfl
@[simp] theorem setKont_irq_q (k : Kont) (s : State) : (setKont .irq k s).q = { s.q with kont := some k } := rfl

/-! ### `readReg` -/

@[simp] theorem readReg_cfg (c : Ctx) (r : Reg) (s : State) : (readReg c r s).cfg = s.cfg := by cases c <;> rfl
@[simp] theorem readReg_devState (c : Ctx) (r : Reg) (s : State) : (readReg c r s).devState = s.devState := by cases c <;> rfl
@[simp] theorem readReg_opCfg (c : Ctx) (r : Reg) (s : State) : (readReg c r s).opCfg = s.opCfg := by cases c <;> rfl
@[simp] theorem readReg_latch (c : Ctx) (r : Reg) (s : State) : (readReg c r s).latch = s.latch := by cases c <;> rfl
@[simp] theorem readReg_qChar (c : Ctx) (r : Reg) (s : State) : (readReg c r s).qChar = s.qChar := by cases c <;> rfl
@[simp] theorem readReg_result (c : Ctx) (r : Reg) (s : State) : (readReg c r s).result = s.result := by cases c <;> rfl
@[simp] theorem readReg_outChar (c : Ctx) (r : Reg) (s : State) : (readReg c r s).outChar = s.outChar := by cases c <;> rfl
@[simp] theorem readReg_history (c : Ctx) (r : Reg) (s : State) : (readReg c r s).history = s.history ++ [.read c (Cfg.addr s.cfg r) (busAnswer c r s)] := by cases c <;> rfl
@[simp] theorem readReg_results (c : Ctx) (r : Reg) (s : State) : (readReg c r s).results = s.results := by cases c <;> rfl
@[simp] theorem readReg_busAnswers (c : Ctx) (r : Reg) (s : State) : (readReg c r s).busAnswers = s.busAnswers.tail := by cases c <;> rfl
@[simp] theorem readReg_clockAnswers (c : Ctx) (r : Reg) (s : State) : (readReg c r s).clockAnswers = s.clockAnswers := by cases c <;> rfl
@[simp] theorem readReg_turns (c : Ctx) (r : Reg) (s : State) : (readReg c r s).turns = s.turns := by cases c <;> rfl
@[simp] theorem readReg_turnCount (c : Ctx) (r : Reg) (s : State) : (readReg c r s).turnCount = s.turnCount := by cases c <;> rfl
@[simp] theorem readReg_port (c : Ctx) (r : Reg) (s : State) : (readReg c r s).port = s.port := by cases c <;> rfl
@[simp] theorem readReg_main_m (r : Reg) (s : State) : (readReg .main r s).m = { s.m with tmp := busAnswer .main r s } := rfl
@[simp] theorem readReg_main_q (r : Reg) (s : State) : (readReg .main r s).q = s.q := rfl
@[simp] theorem readReg_irq_m (r : Reg) (s : State) : (readReg .irq r s).m = s.m := rfl
@[simp] theorem readReg_irq_q (r : Reg) (s : State) : (readReg .irq r s).q = { s.q with tmp := busAnswer .irq r s } := rfl

/-! ### `writeReg` -/

@[simp] theorem writeReg_cfg (c : Ctx) (r : Reg) (v : Word) (s : State) : (writeReg c r v s).cfg = s.cfg := by cases c <;> rfl
@[simp] theorem writeReg_devState (c : Ctx) (r : Reg) (v : Word) (s : State) : (writeReg c r v s).devState = s.devState := by cases c <;> rfl
@[simp] theorem writeReg_opCfg (c : Ctx) (r : Reg) (v : Word) (s : State) : (writeReg c r v s).opCfg = s.opCfg := by cases c <;> rfl
@[simp] theorem writeReg_latch (c : Ctx) (r : Reg) (v : Word) (s : State) : (writeReg c r v s).latch = s.latch := by cases c <;> rfl
@[simp] theorem writeReg_qChar (c : Ctx) (r : Reg) (v : Word) (s : State) : (writeReg c r v s).qChar = s.qChar := by cases c <;> rfl
@[simp] theorem writeReg_result (c : Ctx) (r : Reg) (v : Word) (s : State) : (writeReg c r v s).result = s.result := by cases c <;> rfl
@[simp] theorem writeReg_outChar (c : Ctx) (r : Reg) (v : Word) (s : State) : (writeReg c r v s).outChar = s.outChar := by cases c <;> rfl
@[simp] theorem writeReg_history (c : Ctx) (r : Reg) (v : Word) (s : State) : (writeReg c r v s).history = s.history ++ [.write c (Cfg.addr s.cfg r) v] := by cases c <;> rfl
@[simp] theorem writeReg_results (c : Ctx) (r : Reg) (v : Word) (s : State) : (writeReg c r v s).results = s.results := by cases c <;> rfl
@[simp] theorem writeReg_busAnswers (c : Ctx) (r : Reg) (v : Word) (s : State) : (writeReg c r v s).busAnswers = s.busAnswers := by cases c <;> rfl
@[simp] theorem writeReg_clockAnswers (c : Ctx) (r : Reg) (v : Word) (s : State) : (writeReg c r v s).clockAnswers = s.clockAnswers := by cases c <;> rfl
@[simp] theorem writeReg_turns (c : Ctx) (r : Reg) (v : Word) (s : State) : (writeReg c r v s).turns = s.turns := by cases c <;> rfl
@[simp] theorem writeReg_turnCount (c : Ctx) (r : Reg) (v : Word) (s : State) : (writeReg c r v s).turnCount = s.turnCount := by cases c <;> rfl
@[simp] theorem writeReg_port (c : Ctx) (r : Reg) (v : Word) (s : State) : (writeReg c r v s).port = s.port := by cases c <;> rfl
@[simp] theorem writeReg_m (c : Ctx) (r : Reg) (v : Word) (s : State) : (writeReg c r v s).m = s.m := rfl
@[simp] theorem writeReg_q (c : Ctx) (r : Reg) (v : Word) (s : State) : (writeReg c r v s).q = s.q := rfl

/-! ### `sampleNow` -/

@[simp] theorem sampleNow_cfg (c : Ctx) (s : State) : (sampleNow c s).cfg = s.cfg := by cases c <;> rfl
@[simp] theorem sampleNow_devState (c : Ctx) (s : State) : (sampleNow c s).devState = s.devState := by cases c <;> rfl
@[simp] theorem sampleNow_opCfg (c : Ctx) (s : State) : (sampleNow c s).opCfg = s.opCfg := by cases c <;> rfl
@[simp] theorem sampleNow_latch (c : Ctx) (s : State) : (sampleNow c s).latch = s.latch := by cases c <;> rfl
@[simp] theorem sampleNow_qChar (c : Ctx) (s : State) : (sampleNow c s).qChar = s.qChar := by cases c <;> rfl
@[simp] theorem sampleNow_result (c : Ctx) (s : State) : (sampleNow c s).result = s.result := by cases c <;> rfl
@[simp] theorem sampleNow_outChar (c : Ctx) (s : State) : (sampleNow c s).outChar = s.outChar := by cases c <;> rfl
@[simp] theorem sampleNow_history (c : Ctx) (s : State) : (sampleNow c s).history = s.history ++ [.now c (clockAnswer c s)] := by cases c <;> rfl
@[simp] theorem sampleNow_results (c : Ctx) (s : State) : (sampleNow c s).results = s.results := by cases c <;> rfl
@[simp] theorem sampleNow_busAnswers (c : Ctx) (s : State) : (sampleNow c s).busAnswers = s.busAnswers := by cases c <;> rfl
@[simp] theorem sampleNow_clockAnswers (c : Ctx) (s : State) : (sampleNow c s).clockAnswers = s.clockAnswers.tail := by cases c <;> rfl
@[simp] theorem sampleNow_turns (c : Ctx) (s : State) : (sampleNow c s).turns = s.turns := by cases c <;> rfl
@[simp] theorem sampleNow_turnCount (c : Ctx) (s : State) : (sampleNow c s).turnCount = s.turnCount := by cases c <;> rfl
@[simp] theorem sampleNow_port (c : Ctx) (s : State) : (sampleNow c s).port = s.port := by cases c <;> rfl
@[simp] theorem sampleNow_m (c : Ctx) (s : State) : (sampleNow c s).m = s.m := rfl
@[simp] theorem sampleNow_q (c : Ctx) (s : State) : (sampleNow c s).q = s.q := rfl

/-! ### `startClock` -/

@[simp] theorem startClock_cfg (c : Ctx) (s : State) : (startClock c s).cfg = s.cfg := by cases c <;> rfl
@[simp] theorem startClock_devState (c : Ctx) (s : State) : (startClock c s).devState = s.devState := by cases c <;> rfl
@[simp] theorem startClock_opCfg (c : Ctx) (s : State) : (startClock c s).opCfg = s.opCfg := by cases c <;> rfl
@[simp] theorem startClock_latch (c : Ctx) (s : State) : (startClock c s).latch = s.latch := by cases c <;> rfl
@[simp] theorem startClock_qChar (c : Ctx) (s : State) : (startClock c s).qChar = s.qChar := by cases c <;> rfl
@[simp] theorem startClock_result (c : Ctx) (s : State) : (startClock c s).result = s.result := by cases c <;> rfl
@[simp] theorem startClock_outChar (c : Ctx) (s : State) : (startClock c s).outChar = s.outChar := by cases c <;> rfl
@[simp] theorem startClock_history (c : Ctx) (s : State) : (startClock c s).history = s.history ++ [.now c (clockAnswer c s)] := by cases c <;> rfl
@[simp] theorem startClock_results (c : Ctx) (s : State) : (startClock c s).results = s.results := by cases c <;> rfl
@[simp] theorem startClock_busAnswers (c : Ctx) (s : State) : (startClock c s).busAnswers = s.busAnswers := by cases c <;> rfl
@[simp] theorem startClock_clockAnswers (c : Ctx) (s : State) : (startClock c s).clockAnswers = s.clockAnswers.tail := by cases c <;> rfl
@[simp] theorem startClock_turns (c : Ctx) (s : State) : (startClock c s).turns = s.turns := by cases c <;> rfl
@[simp] theorem startClock_turnCount (c : Ctx) (s : State) : (startClock c s).turnCount = s.turnCount := by cases c <;> rfl
@[simp] theorem startClock_port (c : Ctx) (s : State) : (startClock c s).port = s.port := by cases c <;> rfl
@[simp] theorem startClock_main_m (s : State) : (startClock .main s).m = { s.m with tStart := clockAnswer .main s } := rfl
@[simp] theorem startClock_main_q (s : State) : (startClock .main s).q = s.q := rfl
@[simp] theorem startClock_irq_m (s : State) : (startClock .irq s).m = s.m := rfl
@[simp] theorem startClock_irq_q (s : State) : (startClock .irq s).q = { s.q with tStart := clockAnswer .irq s } := rfl

/-! ### `accept` -/

@[simp] theorem accept_cfg (i : Instr) (s : State) : (accept i s).cfg = s.cfg := rfl
@[simp] theorem accept_devState (i : Instr) (s : State) : (accept i s).devState = s.devState := rfl
@[simp] theorem accept_opCfg (i : Instr) (s : State) : (accept i s).opCfg = s.opCfg := rfl
@[simp] theorem accept_m (i : Instr) (s : State) : (accept i s).m = { s.m with busy := true } := rfl
@[simp] theorem accept_q (i : Instr) (s : State) : (accept i s).q = s.q := rfl
@[simp] theorem accept_latch (i : Instr) (s : State) : (accept i s).latch = { op := i.op, p := i.p, c := i.c, arg := i.arg, str := i.payload, idx := 0 } := rfl
@[simp] theorem accept_qChar (i : Instr) (s : State) : (accept i s).qChar = s.qChar := rfl
@[simp] theorem accept_result (i : Instr) (s : State) : (accept i s).result = s.result := rfl
@[simp] theorem accept_outChar (i : Instr) (s : State) : (accept i s).outChar = s.outChar := rfl
@[simp] theorem accept_history (i : Instr) (s : State) : (accept i s).history = s.history := rfl
@[simp] theorem accept_results (i : Instr) (s : State) : (accept i s).results = s.results := rfl
@[simp] theorem accept_busAnswers (i : Instr) (s : State) : (accept i s).busAnswers = s.busAnswers := rfl
@[simp] theorem accept_clockAnswers (i : Instr) (s : State) : (accept i s).clockAnswers = s.clockAnswers := rfl
@[simp] theorem accept_turns (i : Instr) (s : State) : (accept i s).turns = s.turns := rfl
@[simp] theorem accept_turnCount (i : Instr) (s : State) : (accept i s).turnCount = s.turnCount := rfl
@[simp] theorem accept_port (i : Instr) (s : State) : (accept i s).port = s.port := rfl

/-! ### `complete` -/

@[simp] theorem complete_cfg (e : ErrorStatus) (s : State) : (complete e s).cfg = s.cfg := rfl
@[simp] theorem complete_devState (e : ErrorStatus) (s : State) : (complete e s).devState = s.devState := rfl
@[simp] theorem complete_opCfg (e : ErrorStatus) (s : State) : (complete e s).opCfg = s.opCfg := rfl
@[simp] theorem complete_m (e : ErrorStatus) (s : State) : (complete e s).m = { s.m with busy := false, phase := .idle, kont := none } := rfl
@[simp] theorem complete_q (e : ErrorStatus) (s : State) : (complete e s).q = s.q := rfl
@[simp] theorem complete_latch (e : ErrorStatus) (s : State) : (complete e s).latch = s.latch := rfl
@[simp] theorem complete_qChar (e : ErrorStatus) (s : State) : (complete e s).qChar = s.qChar := rfl
@[simp] theorem complete_result (e : ErrorStatus) (s : State) : (complete e s).result = some e.code := rfl
@[simp] theorem complete_outChar (e : ErrorStatus) (s : State) : (complete e s).outChar = s.outChar := rfl
@[simp] theorem complete_history (e : ErrorStatus) (s : State) : (complete e s).history = s.history := rfl
@[simp] theorem complete_results (e : ErrorStatus) (s : State) : (complete e s).results = s.results ++ [completionOf e s] := rfl
@[simp] theorem complete_busAnswers (e : ErrorStatus) (s : State) : (complete e s).busAnswers = s.busAnswers := rfl
@[simp] theorem complete_clockAnswers (e : ErrorStatus) (s : State) : (complete e s).clockAnswers = s.clockAnswers := rfl
@[simp] theorem complete_turns (e : ErrorStatus) (s : State) : (complete e s).turns = s.turns := rfl
@[simp] theorem complete_turnCount (e : ErrorStatus) (s : State) : (complete e s).turnCount = s.turnCount := rfl
@[simp] theorem complete_port (e : ErrorStatus) (s : State) : (complete e s).port = s.port := rfl

/-! ### `enterHandler` -/

@[simp] theorem enterHandler_cfg (s : State) : (enterHandler s).cfg = s.cfg := rfl
@[simp] theorem enterHandler_devState (s : State) : (enterHandler s).devState = s.devState := rfl
@[simp] theorem enterHandler_opCfg (s : State) : (enterHandler s).opCfg = s.opCfg := rfl
@[simp] theorem enterHandler_m (s : State) : (enterHandler s).m = s.m := rfl
@[simp] theorem enterHandler_q (s : State) : (enterHandler s).q = { s.q with busy := true, phase := .hRMis } := rfl
@[simp] theorem enterHandler_latch (s : State) : (enterHandler s).latch = s.latch := rfl
@[simp] theorem enterHandler_qChar (s : State) : (enterHandler s).qChar = s.qChar := rfl
@[simp] theorem enterHandler_result (s : State) : (enterHandler s).result = s.result := rfl
@[simp] theorem enterHandler_outChar (s : State) : (enterHandler s).outChar = s.outChar := rfl
@[simp] theorem enterHandler_history (s : State) : (enterHandler s).history = s.history := rfl
@[simp] theorem enterHandler_results (s : State) : (enterHandler s).results = s.results := rfl
@[simp] theorem enterHandler_busAnswers (s : State) : (enterHandler s).busAnswers = s.busAnswers := rfl
@[simp] theorem enterHandler_clockAnswers (s : State) : (enterHandler s).clockAnswers = s.clockAnswers := rfl
@[simp] theorem enterHandler_turns (s : State) : (enterHandler s).turns = s.turns := rfl
@[simp] theorem enterHandler_turnCount (s : State) : (enterHandler s).turnCount = s.turnCount := rfl
@[simp] theorem enterHandler_port (s : State) : (enterHandler s).port = s.port := rfl

/-! ### `leaveHandler` -/

@[simp] theorem leaveHandler_cfg (s : State) : (leaveHandler s).cfg = s.cfg := rfl
@[simp] theorem leaveHandler_devState (s : State) : (leaveHandler s).devState = s.devState := rfl
@[simp] theorem leaveHandler_opCfg (s : State) : (leaveHandler s).opCfg = s.opCfg := rfl
@[simp] theorem leaveHandler_m (s : State) : (leaveHandler s).m = s.m := rfl
@[simp] theorem leaveHandler_q (s : State) : (leaveHandler s).q = { s.q with busy := false, phase := .idle, kont := none } := rfl
@[simp] theorem leaveHandler_latch (s : State) : (leaveHandler s).latch = s.latch := rfl
@[simp] theorem leaveHandler_qChar (s : State) : (leaveHandler s).qChar = s.qChar := rfl
@[simp] theorem leaveHandler_result (s : State) : (leaveHandler s).result = s.result := rfl
@[simp] theorem leaveHandler_outChar (s : State) : (leaveHandler s).outChar = s.outChar := rfl
@[simp] theorem leaveHandler_history (s : State) : (leaveHandler s).history = s.history := rfl
@[simp] theorem leaveHandler_results (s : State) : (leaveHandler s).results = s.results := rfl
@[simp] theorem leaveHandler_busAnswers (s : State) : (leaveHandler s).busAnswers = s.busAnswers := rfl
@[simp] theorem leaveHandler_clockAnswers (s : State) : (leaveHandler s).clockAnswers = s.clockAnswers := rfl
@[simp] theorem leaveHandler_turns (s : State) : (leaveHandler s).turns = s.turns := rfl
@[simp] theorem leaveHandler_turnCount (s : State) : (leaveHandler s).turnCount = s.turnCount := rfl
@[simp] theorem leaveHandler_port (s : State) : (leaveHandler s).port = s.port := rfl

/-! ### `takeTurn` -/

@[simp] theorem takeTurn_cfg (s : State) : (takeTurn s).cfg = s.cfg := by unfold takeTurn; cases s.turns <;> rfl
@[simp] theorem takeTurn_devState (s : State) : (takeTurn s).devState = s.devState := by unfold takeTurn; cases s.turns <;> rfl
@[simp] theorem takeTurn_opCfg (s : State) : (takeTurn s).opCfg = s.opCfg := by unfold takeTurn; cases s.turns <;> rfl
@[simp] theorem takeTurn_m (s : State) : (takeTurn s).m = s.m := by unfold takeTurn; cases s.turns <;> rfl
@[simp] theorem takeTurn_q (s : State) : (takeTurn s).q = s.q := by unfold takeTurn; cases s.turns <;> rfl
@[simp] theorem takeTurn_latch (s : State) : (takeTurn s).latch = s.latch := by unfold takeTurn; cases s.turns <;> rfl
@[simp] theorem takeTurn_qChar (s : State) : (takeTurn s).qChar = s.qChar := by unfold takeTurn; cases s.turns <;> rfl
@[simp] theorem takeTurn_result (s : State) : (takeTurn s).result = s.result := by unfold takeTurn; cases s.turns <;> rfl
@[simp] theorem takeTurn_outChar (s : State) : (takeTurn s).outChar = s.outChar := by unfold takeTurn; cases s.turns <;> rfl
@[simp] theorem takeTurn_history (s : State) : (takeTurn s).history = s.history := by unfold takeTurn; cases s.turns <;> rfl
@[simp] theorem takeTurn_results (s : State) : (takeTurn s).results = s.results := by unfold takeTurn; cases s.turns <;> rfl
@[simp] theorem takeTurn_busAnswers (s : State) : (takeTurn s).busAnswers = s.busAnswers := by unfold takeTurn; cases s.turns <;> rfl
@[simp] theorem takeTurn_clockAnswers (s : State) : (takeTurn s).clockAnswers = s.clockAnswers := by unfold takeTurn; cases s.turns <;> rfl
@[simp] theorem takeTurn_port (s : State) : (takeTurn s).port = s.port := by unfold takeTurn; cases s.turns <;> rfl

/-! ### `placeOffer` -/

@[simp] theorem placeOffer_cfg (o : Offer) (s : State) : (placeOffer o s).cfg = s.cfg := rfl
@[simp] theorem placeOffer_devState (o : Offer) (s : State) : (placeOffer o s).devState = s.devState := rfl
@[simp] theorem placeOffer_opCfg (o : Offer) (s : State) : (placeOffer o s).opCfg = s.opCfg := rfl
@[simp] theorem placeOffer_m (o : Offer) (s : State) : (placeOffer o s).m = { s.m with busy := false, phase := .idle, kont := none } := rfl
@[simp] theorem placeOffer_q (o : Offer) (s : State) : (placeOffer o s).q = { s.q with busy := false, phase := .idle, kont := none } := rfl
@[simp] theorem placeOffer_latch (o : Offer) (s : State) : (placeOffer o s).latch = s.latch := rfl
@[simp] theorem placeOffer_qChar (o : Offer) (s : State) : (placeOffer o s).qChar = s.qChar := rfl
@[simp] theorem placeOffer_result (o : Offer) (s : State) : (placeOffer o s).result = s.result := rfl
@[simp] theorem placeOffer_outChar (o : Offer) (s : State) : (placeOffer o s).outChar = s.outChar := rfl
@[simp] theorem placeOffer_history (o : Offer) (s : State) : (placeOffer o s).history = s.history := rfl
@[simp] theorem placeOffer_results (o : Offer) (s : State) : (placeOffer o s).results = s.results := rfl
@[simp] theorem placeOffer_busAnswers (o : Offer) (s : State) : (placeOffer o s).busAnswers = s.busAnswers := rfl
@[simp] theorem placeOffer_clockAnswers (o : Offer) (s : State) : (placeOffer o s).clockAnswers = s.clockAnswers := rfl
@[simp] theorem placeOffer_turns (o : Offer) (s : State) : (placeOffer o s).turns = .main :: s.turns := rfl
@[simp] theorem placeOffer_turnCount (o : Offer) (s : State) : (placeOffer o s).turnCount = s.turnCount := rfl
@[simp] theorem placeOffer_port (o : Offer) (s : State) : (placeOffer o s).port = o :: s.port := rfl

end Sys2Proof.Machine
end

