-- ==== Sys2Proof/Laws/Ops.lean ====
section
/-! SUPPORT. What each shared operation can do, said once: one inversion or frame lemma per operation, which later proofs
cite instead of unfolding it. -/

namespace Sys2Proof.Machine

/-! ### `mainEvent` -/

/-- A main-context meaning answers a next state in three ways: no event, the acceptance, or an event of the run. -/
theorem mainEvent_next {i : Instr} {start : State → State} {event : State → Option State} {s t : State}
    (h : mainEvent i start event s = .next t) :
    (t = s ∧ (s.q.busy = true ∨ (s.m.busy = true ∧ running s ≠ some i)))
      ∨ (s.q.busy = false ∧ s.m.busy = false ∧ t = start (accept i s))
      ∨ (s.q.busy = false ∧ s.m.busy = true ∧ running s = some i ∧ event s = some t) := by
  unfold mainEvent at h
  split at h
  · cases h; exact .inl ⟨rfl, .inl ‹_›⟩
  · rename_i hq
    split at h
    · rename_i hm
      split at h
      · rename_i hr
        split at h
        · cases h; exact .inr (.inr ⟨by simpa using hq, hm, hr, ‹_›⟩)
        · cases h
      · rename_i hr
        cases h; exact .inl ⟨rfl, .inr ⟨hm, hr⟩⟩
    · rename_i hm
      cases h; exact .inr (.inl ⟨by simpa using hq, by simpa using hm, rfl⟩)

theorem mainEvent_accept {i : Instr} {start : State → State} {event : State → Option State} {s : State}
    (hq : s.q.busy = false) (hm : s.m.busy = false) :
    mainEvent i start event s = .next (start (accept i s)) := by simp [mainEvent, hq, hm]

theorem mainEvent_event {i : Instr} {start : State → State} {event : State → Option State} {s t : State}
    (hq : s.q.busy = false) (hm : s.m.busy = true) (hr : running s = some i) (he : event s = some t) :
    mainEvent i start event s = .next t := by simp [mainEvent, hq, hm, hr, he]

/-- A meaning of the main context refuses nothing. -/
theorem mainEvent_not_refused {i : Instr} {start : State → State} {event : State → Option State} {s : State}
    {r : Refusal} : mainEvent i start event s ≠ .refused r := by
  unfold mainEvent
  split
  · nofun
  · split
    · split
      · split <;> nofun
      · nofun
    · nofun

/-- A meaning of the main context faults only where it is its own turn and R126 gives it no event. -/
theorem mainEvent_fault {i : Instr} {start : State → State} {event : State → Option State} {s : State} {r : Fault}
    (h : mainEvent i start event s = .fault r) :
    r = .sequencer ∧ s.q.busy = false ∧ s.m.busy = true ∧ running s = some i ∧ event s = none := by
  unfold mainEvent at h
  split at h
  · cases h
  · rename_i hq
    split at h
    · rename_i hm
      split at h
      · rename_i hr
        split at h
        · cases h
        · cases h; exact ⟨rfl, by simpa using hq, hm, hr, ‹_›⟩
      · cases h
    · cases h

/-! ### The latched operation -/

@[simp] theorem running_takeTurn (s : State) : running (takeTurn s) = running s := by simp [running]

/-- What the latches hold, from the operation read back from them (10_state R22). -/
theorem running_latch {s : State} {i : Instr} (h : running s = some i) :
    s.latch.op = i.op ∧ (∀ b, i = .init b → s.latch.arg = b)
      ∧ (∀ c b, i = .sendChar c b → s.latch.c = c ∧ s.latch.arg = b)
      ∧ (∀ p b, i = .getChar p b → s.latch.p = p ∧ s.latch.arg = b)
      ∧ (∀ str b, i = .sendString true str b → s.latch.p = true ∧ s.latch.str = str ∧ s.latch.arg = b) := by
  have hop : ∀ n, s.latch.op.toNat = n → s.latch.op = BitVec.ofNat 4 n := by
    intro n hn; rw [← hn]; simp
  unfold running at h
  split at h <;> cases h <;> rename_i hn <;> refine ⟨hop _ hn, ?_, ?_, ?_, ?_⟩ <;> intros <;>
    simp_all <;> grind

/-! ### The sequences -/

theorem txStart_eq (c : Ctx) (s : State) :
    txStart c s = goto c (if budget c s = 0#32 then .tRFlag else .tStart) s := by
  unfold txStart; split <;> rfl

theorem rxStart_eq (c : Ctx) (s : State) :
    rxStart c s = goto c (if budget c s = 0#32 then .gRFlag else .gStart) s := by
  unfold rxStart; split <;> rfl

theorem pollFlag_eq (c : Ctx) (mask : Word) (ready retry deadline : Phase) (s : State) :
    pollFlag c mask ready retry deadline s =
      goto c (if anySet (busAnswer c .flag s) mask then (if budget c s = 0#32 then retry else deadline) else ready)
        (readReg c .flag s) := by
  have hv : ((readReg c .flag s).seq c).tmp = busAnswer c .flag s := by cases c <;> rfl
  unfold pollFlag
  simp only [hv]
  by_cases hf : anySet (busAnswer c .flag s) mask <;> by_cases hb : budget c s = 0#32 <;> simp [hf, hb]

/-- What the two contexts' sequences leave alone, whatever they do: the configuration, the ghosts, `RESULT`, the result
port, the busy bits and the pending inputs other than the oracle's answers. -/
def seqKeeps (s t : State) : Prop :=
  t.cfg = s.cfg ∧ t.devState = s.devState ∧ t.opCfg = s.opCfg ∧ t.result = s.result ∧ t.results = s.results
    ∧ t.turns = s.turns ∧ t.turnCount = s.turnCount ∧ t.port = s.port

/-- What a sequence of the main context also leaves alone: the irq context, and the operands in the latches. -/
def mainSeqKeeps (s t : State) : Prop :=
  t.q = s.q ∧ t.qChar = s.qChar ∧ t.m.busy = s.m.busy ∧ t.m.kont = s.m.kont ∧ t.latch.op = s.latch.op
    ∧ t.latch.p = s.latch.p ∧ t.latch.arg = s.latch.arg ∧ t.latch.str = s.latch.str

/-- What a sequence of the irq context also leaves alone: everything of the main context. -/
def irqSeqKeeps (s t : State) : Prop :=
  t.m = s.m ∧ t.latch = s.latch ∧ t.outChar = s.outChar ∧ t.q.busy = s.q.busy ∧ t.q.kont = s.q.kont

theorem stringNext_keeps {e : ErrorStatus} {s t : State} (h : stringNext e s = some t) :
    seqKeeps s t ∧ mainSeqKeeps s t ∧ t.history = s.history ∧ t.outChar = s.outChar := by
  unfold stringNext at h
  simp only [txStart_eq] at h
  split at h
  · split at h
    · cases h; simp [seqKeeps, mainSeqKeeps]
    · split at h
      · cases h; simp [seqKeeps, mainSeqKeeps]
      · cases h
  · cases h; simp [seqKeeps, mainSeqKeeps]

theorem txEnd_main_keeps {e : ErrorStatus} {s t : State} (h : txEnd .main e s = some t) :
    seqKeeps s t ∧ mainSeqKeeps s t ∧ t.history = s.history ∧ t.outChar = s.outChar := by
  simp only [txEnd] at h
  split at h <;> first | cases h | skip
  · simp [seqKeeps, mainSeqKeeps]
  · exact stringNext_keeps h

theorem txEnd_irq {e : ErrorStatus} {s t : State} (h : txEnd .irq e s = some t) :
    s.q.kont = some .handler ∧ t = goto .irq .hWIcr s := by
  simp only [txEnd] at h
  split at h <;> cases h
  exact ⟨‹_›, rfl⟩

theorem rxEnd_main {e : ErrorStatus} {s t : State} (h : rxEnd .main e s = some t) :
    s.m.kont = some .getChar ∧
      t = goto .main (.done e) (if e = .ok then { s with outChar := some (lowByte s.m.tmp) } else s) := by
  simp only [rxEnd] at h
  split at h <;> first | cases h | skip
  rename_i hk
  refine ⟨hk, ?_⟩
  split at h <;> cases h <;> simp_all

theorem rxEnd_irq {e : ErrorStatus} {s t : State} (h : rxEnd .irq e s = some t) :
    s.q.kont = some .handler ∧
      t = if e = .ok then txStart .irq { s with qChar := lowByte s.q.tmp } else goto .irq .hWIcr s := by
  simp only [rxEnd] at h
  split at h <;> first | cases h | skip
  rename_i hk
  refine ⟨hk, ?_⟩
  split at h <;> cases h <;> simp_all

/-- The frame of an event of `SendCharSeq` on the main context, and what it adds to the history: one event. -/
theorem sendEvent_main_keeps {s t : State} (h : sendEvent .main s = some t) :
    seqKeeps s t ∧ mainSeqKeeps s t ∧ t.outChar = s.outChar ∧ ∃ e, t.history = s.history ++ [e] := by
  unfold sendEvent at h
  split at h
  · cases h; simp [seqKeeps, mainSeqKeeps, pollStart]
  · cases h; simp [seqKeeps, mainSeqKeeps, pollFlag_eq]
  · split at h
    · have := txEnd_main_keeps h; simp_all [seqKeeps, mainSeqKeeps]
    · cases h; simp [seqKeeps, mainSeqKeeps]
  · simp only at h
    split at h
    · have := txEnd_main_keeps h; simp_all [seqKeeps, mainSeqKeeps]
    · cases h; simp [seqKeeps, mainSeqKeeps]
  · have := txEnd_main_keeps h; simp_all [seqKeeps, mainSeqKeeps]
  · cases h

/-- The frame of an event of `SendCharSeq` on the irq context. -/
theorem sendEvent_irq_keeps {s t : State} (h : sendEvent .irq s = some t) :
    seqKeeps s t ∧ irqSeqKeeps s t ∧ t.qChar = s.qChar ∧ ∃ e, t.history = s.history ++ [e] := by
  unfold sendEvent at h
  split at h
  · cases h; simp [seqKeeps, irqSeqKeeps, pollStart]
  · cases h; simp [seqKeeps, irqSeqKeeps, pollFlag_eq]
  · split at h
    · obtain ⟨-, rfl⟩ := txEnd_irq h; simp [seqKeeps, irqSeqKeeps]
    · cases h; simp [seqKeeps, irqSeqKeeps]
  · simp only at h
    split at h
    · obtain ⟨-, rfl⟩ := txEnd_irq h; simp [seqKeeps, irqSeqKeeps]
    · cases h; simp [seqKeeps, irqSeqKeeps]
  · obtain ⟨-, rfl⟩ := txEnd_irq h; simp [seqKeeps, irqSeqKeeps]
  · cases h

/-- The frame of an event of `GetCharSeq` on the main context. -/
theorem getEvent_main_keeps {s t : State} (h : getEvent .main s = some t) :
    seqKeeps s t ∧ mainSeqKeeps s t ∧ t.latch = s.latch ∧ ∃ e, t.history = s.history ++ [e] := by
  unfold getEvent at h
  split at h
  · cases h; simp [seqKeeps, mainSeqKeeps, pollStart]
  · cases h; simp [seqKeeps, mainSeqKeeps, pollFlag_eq]
  · split at h
    · obtain ⟨-, rfl⟩ := rxEnd_main h; simp [seqKeeps, mainSeqKeeps]
    · cases h; simp [seqKeeps, mainSeqKeeps]
  · simp only at h
    split at h
    · cases h; simp [seqKeeps, mainSeqKeeps]
    · obtain ⟨-, rfl⟩ := rxEnd_main h; split <;> simp [seqKeeps, mainSeqKeeps]
  · obtain ⟨-, rfl⟩ := rxEnd_main h; simp [seqKeeps, mainSeqKeeps]
  · cases h

/-- The frame of an event of `GetCharSeq` on the irq context. -/
theorem getEvent_irq_keeps {s t : State} (h : getEvent .irq s = some t) :
    seqKeeps s t ∧ irqSeqKeeps s t ∧ ∃ e, t.history = s.history ++ [e] := by
  unfold getEvent at h
  split at h
  · cases h; simp [seqKeeps, irqSeqKeeps, pollStart]
  · cases h; simp [seqKeeps, irqSeqKeeps, pollFlag_eq]
  · split at h
    · obtain ⟨-, rfl⟩ := rxEnd_irq h; simp [seqKeeps, irqSeqKeeps]
    · cases h; simp [seqKeeps, irqSeqKeeps]
  · simp only at h
    split at h
    · cases h; simp [seqKeeps, irqSeqKeeps]
    · obtain ⟨-, rfl⟩ := rxEnd_irq h; split <;> simp [seqKeeps, irqSeqKeeps, txStart_eq]
  · obtain ⟨-, rfl⟩ := rxEnd_irq h; simp [seqKeeps, irqSeqKeeps, txStart_eq]
  · cases h

/-! ### The handler -/

/-- One event of `IRQ_HANDLER`: the dispatch, or an event of the run. -/
theorem execIrqHandler_next {s t : State} (h : execIrqHandler s = .next t) :
    (s.q.busy = false ∧ t = enterHandler s) ∨ (s.q.busy = true ∧ handlerEvent s = some t) := by
  unfold execIrqHandler at h
  split at h
  · split at h
    · cases h; exact .inr ⟨‹_›, ‹_›⟩
    · cases h
  · cases h; exact .inl ⟨by simpa using ‹¬s.q.busy = true›, rfl⟩

/-- The frame of an event of a handler run. -/
theorem handlerEvent_keeps {s t : State} (h : handlerEvent s = some t) :
    seqKeeps s t ∧ t.m = s.m ∧ t.latch = s.latch ∧ t.outChar = s.outChar
      ∧ (t.history = s.history ∨ ∃ e, t.history = s.history ++ [e]) := by
  unfold handlerEvent at h
  split at h
  · simp only at h
    split at h <;> cases h <;> simp [seqKeeps, rxStart_eq]
  · cases h; simp [seqKeeps]
  · cases h; simp [seqKeeps]
  · split at h
    · cases h
      obtain ⟨h1, h2, h3⟩ := getEvent_irq_keeps ‹_›
      exact ⟨h1, h2.1, h2.2.1, h2.2.2.1, .inr h3⟩
    · obtain ⟨h1, h2, -, h3⟩ := sendEvent_irq_keeps h
      exact ⟨h1, h2.1, h2.2.1, h2.2.2.1, .inr h3⟩

/-! ### The step -/

/-- Where a step answers a next state, it ran an event of one operation, or both contexts were idle. -/
theorem step_next {s t : State} (h : step s = .next t) :
    (∃ i u, fetch s = .run i u ∧ exec i u = .next t) ∨ fetch s = .idle t := by
  unfold step at h
  split at h
  · exact .inl ⟨_, _, ‹_›, h⟩
  · cases h; exact .inr ‹_›
  · cases h
  · cases h

/-- What the step can run: the handler while it is busy; a dispatch; the operation in progress; an accepted command. -/
theorem fetch_run {s u : State} {i : Instr} (h : fetch s = .run i u) :
    (s.q.busy = true ∧ i = .irqHandler ∧ u = s)
      ∨ (s.q.busy = false ∧ nextTurn s = .dispatch ∧ i = .irqHandler ∧ u = takeTurn s)
      ∨ (s.q.busy = false ∧ nextTurn s = .main ∧ s.m.busy = true ∧ running (takeTurn s) = some i ∧ u = takeTurn s)
      ∨ (s.q.busy = false ∧ nextTurn s = .main ∧ s.m.busy = false
          ∧ ∃ o rest, s.port = o :: rest ∧ decode o = .ok i ∧ u = { takeTurn s with port := rest }) := by
  unfold fetch at h
  split at h
  · cases h; exact .inl ⟨‹_›, rfl, rfl⟩
  · rename_i hq
    have hq : s.q.busy = false := by simpa using hq
    split at h
    · cases h; exact .inr (.inl ⟨hq, ‹_›, rfl, rfl⟩)
    · unfold fetchMain at h
      split at h
      · split at h <;> cases h
        exact .inr (.inr (.inl ⟨hq, ‹_›, by simpa using ‹(takeTurn s).m.busy = true›, ‹_›, rfl⟩))
      · rename_i hm
        split at h
        · cases h
        · rename_i hp
          split at h <;> cases h
          exact .inr (.inr (.inr ⟨hq, ‹_›, by simpa using hm, _, _, by simpa using hp, ‹_›, rfl⟩))

/-- Where nothing happens: the main context's turn, both idle, nothing offered. -/
theorem fetch_idle {s u : State} (h : fetch s = .idle u) :
    s.q.busy = false ∧ nextTurn s = .main ∧ s.m.busy = false ∧ s.port = [] ∧ u = takeTurn s := by
  unfold fetch at h
  split at h
  · cases h
  · rename_i hq
    split at h
    · cases h
    · unfold fetchMain at h
      split at h
      · split at h <;> cases h
      · rename_i hm
        split at h
        · cases h
          exact ⟨by simpa using hq, ‹_›, by simpa using hm, by simpa using ‹(takeTurn s).port = []›, rfl⟩
        · split at h <;> cases h

/-- The one fault an operation can end in: where R126 gives its sequencer no event. -/
theorem exec_fault {i : Instr} {s : State} {r : Fault} (h : exec i s = .fault r) : r = .sequencer := by
  cases i
  case irqHandler =>
    simp only [exec, execIrqHandler] at h
    split at h
    · split at h <;> cases h
      rfl
    · cases h
  all_goals exact (mainEvent_fault h).1

/-- The one fault a step can end in: `resultUnwritten` and `outCharUnwritten` are the caller's reads' alone (10_state
R23). -/
theorem step_fault {s : State} {r : Fault} (h : step s = .fault r) : r = .sequencer := by
  unfold step at h
  split at h
  · exact exec_fault h
  · cases h
  · cases h
  · cases h; rfl

end Sys2Proof.Machine
end

