-- ==== Sys2Proof/Laws/Invariant.lean ====
section
/-! SUPPORT. The invariant of the sequencers, taken apart: what each part of it depends on, and how it carries over an
event that touches one context only. -/

namespace Sys2Proof.Machine

/-- The main context's micro-state is judged by its latches and continuation, the configuration, `op_cfg` and
`OUT_CHAR`. -/
theorem mainFitsAt_congr {p : Phase} {s t : State} (hl : t.latch = s.latch) (hk : t.m.kont = s.m.kont)
    (hc : t.cfg = s.cfg) (ho : t.opCfg = s.opCfg) (hx : t.outChar = s.outChar) : mainFitsAt p t ↔ mainFitsAt p s := by
  unfold mainFitsAt initConfigured mainSending mainReceiving
  rw [hl, hk, hc, ho, hx]

/-- The irq context's micro-state is judged by its registers and the configuration. -/
theorem irqPhaseFits_congr {s t : State} (hq : t.q = s.q) (hc : t.cfg = s.cfg) : irqPhaseFits t ↔ irqPhaseFits s := by
  unfold irqPhaseFits irqFitsAt
  rw [hq, hc]

/-- No operation may return Busy (60 R225). -/
theorem mayReturn_ne_busy {op : Code} {e : ErrorStatus} (h : mayReturn op e = true) : e ≠ .busy := by
  rintro rfl
  unfold mayReturn at h
  split at h <;> simp_all

/-- The codes a status read can give (40_common R122). -/
theorem decodeRxStatus_mem (k : Cfg) (v : Word) :
    decodeRxStatus k v ∈ [ErrorStatus.ok, .overrun, .framing, .parity, .noise] := by
  unfold decodeRxStatus
  split
  · simp
  · split
    · simp
    · split
      · simp
      · split <;> simp

/-- The invariant after an event that leaves the main context busy and the irq context alone. -/
theorem inv_of_main {s t : State} (hI : Inv s) (hc : t.cfg = s.cfg) (hq : t.q = s.q) (hr : t.result = s.result)
    (hrs : t.results = s.results) (hb : t.m.busy = true) (hf : mainFitsAt t.m.phase t)
    (hn : t.latch.p = false → t.latch.str = []) (hx : t.latch.idx ≤ t.latch.str.length)
    (hd : t.devState = .configuring ↔ configuringPhase t.m.phase = true)
    (ho : ∀ o, t.opCfg = some o → o = opCfgOf t.cfg o.baudRate ∧ o.divisor ≠ 0) : Inv t where
  mainIdle := by simp [hb]
  mainBusy := fun _ => hf
  irqIdle := by rw [hq]; exact hI.irqIdle
  irqBusy := by rw [hq]; exact fun h => (irqPhaseFits_congr hq hc).2 (hI.irqBusy h)
  nullString := hn
  index := hx
  configuring := hd
  resultIsLast := by rw [hr, hrs]; exact hI.resultIsLast
  resultNamed := by rw [hr]; exact hI.resultNamed
  opCfgOfBaud := ho

/-- The invariant after an event that leaves the main context alone. -/
theorem inv_of_irq {s t : State} (hI : Inv s) (hc : t.cfg = s.cfg) (hm : t.m = s.m) (hl : t.latch = s.latch)
    (hr : t.result = s.result) (hrs : t.results = s.results) (hd : t.devState = s.devState) (ho : t.opCfg = s.opCfg)
    (hx : t.outChar = s.outChar) (hi : t.q.busy = false → t.q.phase = .idle ∧ t.q.kont = none)
    (hf : t.q.busy = true → irqFitsAt t.q.phase t) : Inv t where
  mainIdle := by rw [hm]; exact hI.mainIdle
  mainBusy := by
    rw [hm]
    intro h
    have := hI.mainBusy h
    unfold mainPhaseFits at *
    rw [hm]
    exact (mainFitsAt_congr hl (by rw [hm]) hc ho hx).2 this
  irqIdle := hi
  irqBusy := hf
  nullString := by rw [hl]; exact hI.nullString
  index := by rw [hl]; exact hI.index
  configuring := by rw [hd, hm]; exact hI.configuring
  resultIsLast := by rw [hr, hrs]; exact hI.resultIsLast
  resultNamed := by rw [hr]; exact hI.resultNamed
  opCfgOfBaud := by rw [ho, hc]; exact hI.opCfgOfBaud

end Sys2Proof.Machine
end

