-- ==== Sys2Proof/Laws/PerInstr.lean ====
section
/-! SUPPORT. What is stated of every operation in turn: the command it is presented as is spelled by its own row of
30_encoding R92, `(CW & mask) == match` and the tag. -/

namespace Sys2Proof.Laws.SpelledByItsRow

open Sys2Proof

/-- The command of an operation is spelled by a row of R92 that bears its operation code. -/
def Statement (i : Instr) : Prop := ∃ r ∈ rows, r.op = i.op ∧ r.spelledBy i.offer = true

/-- An assembled word under a mask, bit by bit: what is left to check is the match. -/
theorem spelled_of_bits {i : Instr} (r : Row) (hr : r ∈ rows) (ho : r.op = i.op) (hc : r.ctx = i.ctx)
    (hb : ∀ n, n < 48 → (encode i &&& r.mask).getLsbD n = r.mtch.getLsbD n) : Statement i := by
  have he : encode i &&& r.mask = r.mtch := BitVec.eq_of_getLsbD_eq hb
  exact ⟨r, hr, ho, by simp [Row.spelledBy, Instr.offer, he, hc]⟩

theorem init (baud : Word) : Statement (.init baud) := by
  refine spelled_of_bits ⟨1#4, .main, 0x100000000000#48, 0xFFFF00000000#48⟩ (by simp [rows]) rfl rfl ?_
  intro n hn
  simp only [encode, assemble, Instr.op, Instr.p, Instr.c, Instr.arg]
  interval_cases n <;> simp

theorem sendChar (c : Byte) (timeoutMs : Word) : Statement (.sendChar c timeoutMs) := by
  refine spelled_of_bits ⟨2#4, .main, 0x200000000000#48, 0xFF0000000000#48⟩ (by simp [rows]) rfl rfl ?_
  intro n hn
  simp only [encode, assemble, Instr.op, Instr.p, Instr.c, Instr.arg]
  interval_cases n <;> simp

theorem getChar (p : Bool) (timeoutMs : Word) : Statement (.getChar p timeoutMs) := by
  refine spelled_of_bits ⟨3#4, .main, 0x300000000000#48, 0xFEFF00000000#48⟩ (by simp [rows]) rfl rfl ?_
  intro n hn
  simp only [encode, assemble, Instr.op, Instr.p, Instr.c, Instr.arg]
  interval_cases n <;> simp

theorem sendString (p : Bool) (str : List Byte) (timeoutMs : Word) : Statement (.sendString p str timeoutMs) := by
  refine spelled_of_bits ⟨4#4, .main, 0x400000000000#48, 0xFEFF00000000#48⟩ (by simp [rows]) rfl rfl ?_
  intro n hn
  simp only [encode, assemble, Instr.op, Instr.p, Instr.c, Instr.arg]
  interval_cases n <;> simp

theorem enableInterrupts : Statement .enableInterrupts := ⟨rows[4], by decide, by decide, by decide⟩

theorem disableInterrupts : Statement .disableInterrupts := ⟨rows[5], by decide, by decide, by decide⟩

theorem clearErrors : Statement .clearErrors := ⟨rows[6], by decide, by decide, by decide⟩

theorem getErrorStatus : Statement .getErrorStatus := ⟨rows[7], by decide, by decide, by decide⟩

theorem irqHandler : Statement .irqHandler := ⟨rows[8], by decide, by decide, by decide⟩

end Sys2Proof.Laws.SpelledByItsRow
end

