-- ==== Sys2Proof/Laws/Peripheral.lean ====
section
/-! SUPPORT. What the premise of 20_memory R74 gives: along a run an error once recorded is still recorded at every
event up to the first write of `RSR_ECR`; and runs of steps taken apart. -/

namespace Sys2Proof.Machine

/-- The errors of `m` are among those recorded. -/
theorem recorded_trans {x y any m : Word} (h : x &&& any &&& y = x &&& any) (hx : x &&& m = m) (hm : m &&& any = m) :
    y &&& m = m := by
  have hxm : x &&& any &&& m = m := by rw [BitVec.and_assoc, BitVec.and_comm any m, hm, hx]
  calc y &&& m = y &&& (x &&& any &&& m) := by rw [hxm]
    _ = x &&& any &&& y &&& m := by rw [← BitVec.and_assoc, BitVec.and_comm y]
    _ = m := by rw [h, hxm]

/-- R74: errors recorded at the first event of a run with no write to `RSR_ECR` are recorded at its last. -/
theorem errorsStayRecorded_last {k : Cfg} {m : Word} (hm : m &&& k.rsrAny = m) (r : Observed) :
    ∀ os : List Observed, errorsStayRecorded k (os ++ [r]) → (∀ o ∈ os, ¬o.clearsErrors k) →
      (∀ o ∈ (os ++ [r]).head?, o.before.errors &&& m = m) → r.before.errors &&& m = m
  | [], _, _, hf => hf r rfl
  | [o], hs, hn, hf =>
    recorded_trans hs.2.1 (recorded_trans (hs.1 (hn o (List.mem_singleton.2 rfl))) (hf o rfl) hm) hm
  | o :: p :: os, hs, hn, hf =>
    errorsStayRecorded_last hm r (p :: os) hs.2.2 (fun q hq => hn q (List.mem_cons_of_mem _ hq)) fun q hq => by
      cases hq
      exact recorded_trans hs.2.1 (recorded_trans (hs.1 (hn o List.mem_cons_self)) (hf o rfl) hm) hm

/-- A run of `n + 1` steps begins with a step. -/
theorem stepN_succ {n : Nat} {s t : State} (h : stepN (n + 1) s = .next t) :
    ∃ u, step s = .next u ∧ stepN n u = .next t := by
  unfold stepN at h
  split at h
  · exact ⟨_, ‹_›, h⟩
  · cases h
  · cases h

/-- What every step keeps, every run of steps keeps. -/
theorem stepN_keeps {P : State → Prop} (hP : ∀ s t, P s → step s = .next t → P t) :
    ∀ {n : Nat} {s t : State}, P s → stepN n s = .next t → P t
  | 0, _, _, hs, h => by cases h; exact hs
  | _ + 1, _, _, hs, h => by
    obtain ⟨u, h1, h2⟩ := stepN_succ h
    exact stepN_keeps hP (hP _ _ hs h1) h2

end Sys2Proof.Machine
end

