-- ==== Sys2Proof/Tests/Slice0.lean ====
section
/-! SUPPORT. The model's own tests: ill-formed terms refused, words written out from the encoding, single steps taken
from the vectors of spec/95, and for every statement with hypotheses a concrete state and operands that meet them. -/

namespace Sys2Proof.Tests

open Sys2Proof Sys2Proof.Machine

/-! ### The sample configuration and states -/

/-- The sample configuration of 95 section 1. -/
def cfg : Cfg where
  uartBase := 0x4000C000#32
  clockHz := 24000000
  ctrlEn := 0x001#32
  ctrlTxe := 0x100#32
  ctrlRxe := 0x200#32
  flagRxfe := 0x10#32
  flagTxff := 0x20#32
  rsrFe := 0x1#32
  rsrPe := 0x2#32
  rsrBe := 0x4#32
  rsrOe := 0x8#32
  intRx := 0x10#32
  lcr8n1 := 0x60#32
  defaultTimeoutMs := 1000#32
  imscUpdate := .rmw

/-- After reset, under the sample configuration, with scripted answers; the turn is the main context's. -/
def idle (bus clock : List Word) : State :=
  { State.reset with cfg := cfg, busAnswers := bus, clockAnswers := clock, turns := [.main] }

/-- The main context in the middle of an operation. -/
def inMain (i : Instr) (p : Phase) (k : Option Kont) (bus clock : List Word) : State :=
  { accept i (idle bus clock) with m := { busy := true, phase := p, kont := k, tStart := 5000#32, tmp := 0x40#32 } }

/-- The handler in the middle of a run, the main context idle. -/
def inIrq (p : Phase) (k : Option Kont) (bus clock : List Word) : State :=
  { idle bus clock with q := { busy := true, phase := p, kont := k, tStart := 0#32, tmp := 0x31#32 }, qChar := 0x78#8 }

/-- What a test looks at after an outcome. -/
def after {α : Type} (f : State → α) : Host.Outcome State Fault Refusal → Option α
  | .next t => some (f t)
  | .fault _ => none
  | .refused _ => none

/-! ### Ill-formed terms -/

theorem test_wf_null_string_with_payload : (Instr.sendString false [0x41#8] 0#32).wellFormed = false := by decide
theorem test_wf_operations : [Instr.init 0#32, .sendChar 0#8 0#32, .getChar false 0#32, .sendString false [] 0#32,
    .sendString true [] 0#32, .sendString true [0x41#8] 0#32, .enableInterrupts, .disableInterrupts, .clearErrors,
    .getErrorStatus, .irqHandler].all Instr.wellFormed = true := by decide
theorem test_wf_cfg : cfg.wellFormed = true := by decide
theorem test_wf_cfg_top : { cfg with uartBase := 0xFFFFFFB8#32, clockHz := 4294967295 }.wellFormed = true := by decide
theorem test_wf_base_unaligned : { cfg with uartBase := 0x4000C002#32 }.wellFormed = false := by decide
theorem test_wf_base_wraps : { cfg with uartBase := 0xFFFFFFBC#32 }.wellFormed = false := by decide
theorem test_wf_clock_zero : { cfg with clockHz := 0 }.wellFormed = false := by decide
theorem test_wf_clock_wide : { cfg with clockHz := 4294967296 }.wellFormed = false := by decide
theorem test_wf_rsr_two_bits : { cfg with rsrOe := 0x18#32 }.wellFormed = false := by decide
theorem test_wf_rsr_equal : { cfg with rsrOe := 0x1#32 }.wellFormed = false := by decide
theorem test_wf_ctrl_two_bits : { cfg with ctrlEn := 0x3#32 }.wellFormed = false := by decide
theorem test_wf_ctrl_equal : { cfg with ctrlTxe := 0x200#32 }.wellFormed = false := by decide
theorem test_wf_flag_zero : { cfg with flagTxff := 0#32 }.wellFormed = false := by decide
theorem test_wf_flag_equal : { cfg with flagTxff := 0x10#32 }.wellFormed = false := by decide
theorem test_wf_int_two_bits : { cfg with intRx := 0x30#32 }.wellFormed = false := by decide

/-! ### Decoding: words written out from 30_encoding R90 and R92, `op z p c arg` -/

theorem test_decode_init :
    decodeTableWord 48 0b0001_000_0_00000000_00000000000000011100001000000000 = some (.init 115200#32) := by decide
theorem test_decode_send_char :
    decodeTableWord 48 0b0010_000_0_01000001_00000000000000000000001111101000 = some (.sendChar 0x41#8 1000#32) := by
  decide
theorem test_decode_get_char :
    decodeTableWord 48 0b0011_000_1_00000000_00000000000000000000001111101000 = some (.getChar true 1000#32) := by decide
theorem test_decode_get_char_null :
    decodeTableWord 48 0b0011_000_0_00000000_00000000000000000000001111101000 = some (.getChar false 1000#32) := by
  decide
theorem test_decode_send_string : decode ⟨.main, 0b0100_000_1_00000000_00000000000000000000001111101000#48, [0x4F#8, 0x4B#8]⟩
    = .ok (.sendString true [0x4F#8, 0x4B#8] 1000#32) := by decide
/-- 95 S3: "A payload supplied with `p = 0` is ignored." -/
theorem test_decode_send_string_null :
    decode ⟨.main, 0x4000000003E8#48, [0x4F#8]⟩ = .ok (.sendString false [] 1000#32) := by decide
theorem test_decode_enable : decodeTableWord 48 0b0101_000_0_00000000_00000000000000000000000000000000
    = some .enableInterrupts := by decide
theorem test_decode_disable : decodeTableWord 48 0b0110_000_0_00000000_00000000000000000000000000000000
    = some .disableInterrupts := by decide
theorem test_decode_clear : decodeTableWord 48 0b0111_000_0_00000000_00000000000000000000000000000000
    = some .clearErrors := by decide
theorem test_decode_status : decodeTableWord 48 0b1000_000_0_00000000_00000000000000000000000000000000
    = some .getErrorStatus := by decide
theorem test_decode_irq : decodeTableWord 48 0b1001_000_0_00000000_00000000000000000000000000000000
    = some .irqHandler := by decide

/-- The words 95 section 11 lists as refused. -/
theorem test_decode_refused :
    [ decode ⟨.main, 0x10FF0001C200#48, []⟩, decode ⟨.main, 0x11000001C200#48, []⟩,
      decode ⟨.main, 0x2141000003E8#48, []⟩, decode ⟨.main, 0x220000000000#48, []⟩,
      decode ⟨.main, 0x3041000003E8#48, []⟩, decode ⟨.main, 0x500000000001#48, []⟩,
      decode ⟨.main, 0x810000000000#48, []⟩, decode ⟨.main, 0x900000000000#48, []⟩,
      decode ⟨.irq, 0x700000000000#48, []⟩, decode ⟨.main, 0x000000000000#48, []⟩,
      decode ⟨.main, 0xA00000000000#48, []⟩, decode ⟨.main, 0xF00000000000#48, []⟩ ]
    = [ .invalid .cNotZero, .invalid .pNotZero, .invalid .pNotZero, .invalid .zNotZero, .invalid .cNotZero,
        .invalid .argNotZero, .invalid .pNotZero, .invalid .wrongContext, .invalid .wrongContext,
        .invalid .reservedOp, .invalid .reservedOp, .invalid .reservedOp ] := by decide

/-! ### Values -/

/-- 95 section 3, the sixteen cases in order. -/
theorem test_decode_rx_status :
    (List.range 16).map (fun n => (decodeRxStatus cfg (BitVec.ofNat 32 n)).code.toNat)
      = [0, 6, 7, 6, 8, 6, 7, 6, 5, 5, 5, 5, 5, 5, 5, 5] := by decide
/-- 95 section 3: "Upper bits are ignored". -/
theorem test_decode_rx_status_upper :
    [0xFFFFFFF0#32, 0x80000002#32, 0x10#32].map (decodeRxStatus cfg) = [.ok, .parity, .ok] := by decide
/-- 95 section 4: the rows for 1, 9600, 115200, 1500000, 1500001, `2^28` and `2^32 - 1`. -/
theorem test_divisor :
    [1#32, 9600#32, 115200#32, 1500000#32, 1500001#32, 0x10000000#32, 0xFFFFFFFF#32].map
      (fun b => (divisor cfg b, (ibrdValue cfg b).toNat, (fbrdValue cfg b).toNat))
      = [(1500000, 23437, 32), (156, 2, 28), (13, 0, 13), (1, 0, 1), (0, 0, 0), (0, 0, 0), (0, 0, 0)] := by decide
/-- 30_encoding R97 and 93 U10: ten codes have a name, the other six none. -/
theorem test_of_code : (List.range 16).map (fun n => ErrorStatus.ofCode (BitVec.ofNat 4 n))
    = [some .ok, some .initFailed, some .timeout, some .invalidParam, some .busy, some .overrun, some .framing,
      some .parity, some .noise, some .hardwareError, none, none, none, none, none, none] := by decide
/-- 95 T2 and T3: elapsed 1000 of 1000 is not past the deadline, 1001 is; across the wrap 10 of 10 is not, 11 is. -/
theorem test_deadline :
    [deadlinePassed 6000#32 5000#32 1000#32, deadlinePassed 6001#32 5000#32 1000#32,
      deadlinePassed 4#32 0xFFFFFFFA#32 10#32, deadlinePassed 5#32 0xFFFFFFFA#32 10#32]
      = [false, true, false, true] := by decide

/-! ### Single steps, from the vectors of 95 -/

/-- I1: the enabling write is `0x301`. -/
theorem test_init_enable : after State.history (exec (.init 115200#32) (inMain (.init 115200#32) .iWCtrlEn none [] []))
    = some [.write .main 0x4000C030#32 0x301#32] := by decide
/-- I4: a zero divisor ends `INIT` after the second write, `dev_state` Disabled. -/
theorem test_init_divisor_zero :
    after (fun t => (t.m.phase, t.devState, t.opCfg))
      (exec (.init 1500001#32) (inMain (.init 1500001#32) .iWIcr none [] []))
    = some (.done .invalidParam, .disabled, none) := by decide
/-- T11: the byte is zero-extended. -/
theorem test_send_char_write :
    after State.history (exec (.sendChar 0xFF#8 0#32) (inMain (.sendChar 0xFF#8 0#32) .tWData (some .sendChar) [] []))
    = some [.write .main 0x4000C000#32 0xFF#32] := by decide
/-- T9: a `FLAG` answer with bit 5 clear is Ready whatever its other bits. -/
theorem test_send_char_flag :
    after (fun t => t.m.phase)
      (exec (.sendChar 0x41#8 9#32) (inMain (.sendChar 0x41#8 9#32) .tRFlag (some .sendChar) [0xFFFFFFDF#32] []))
    = some .tRRsr := by decide
/-- G1: bits `[31:8]` of the `DATA` answer are dropped. -/
theorem test_get_char_data :
    after State.outChar
      (exec (.getChar true 1000#32) (inMain (.getChar true 1000#32) .gRData (some .getChar) [0xF41#32] []))
    = some (some 0x41#8) := by decide
/-- G5: `R(RSR_ECR) -> 0x6` is Parity. -/
theorem test_get_char_status :
    after (fun t => t.m.phase)
      (exec (.getChar true 1000#32) (inMain (.getChar true 1000#32) .gRRsr (some .getChar) [6#32] []))
    = some (.done .parity) := by decide
/-- S5: the failure is propagated unchanged: HardwareError, not Parity. -/
theorem test_send_string_abort :
    after (fun t => t.m.phase)
      (exec (.sendString true [0x4F#8, 0x4B#8] 0#32)
        (inMain (.sendString true [0x4F#8, 0x4B#8] 0#32) .tRRsr (some .sendString) [2#32] []))
    = some (.done .hardwareError) := by decide
/-- S6: the next character begins with a time sample of its own. -/
theorem test_send_string_next :
    after (fun t => (t.m.phase, t.latch.idx, t.latch.c))
      (exec (.sendString true [0x61#8, 0x62#8] 10#32)
        (inMain (.sendString true [0x61#8, 0x62#8] 10#32) .tWData (some .sendString) [] []))
    = some (.tStart, 1, 0x62#8) := by decide
/-- M2: `0x40` read, `0x50` written. -/
theorem test_enable_write :
    after State.history (exec .enableInterrupts (inMain .enableInterrupts .mWImsc none [] []))
    = some [.write .main 0x4000C038#32 0x50#32] := by decide
/-- M5 with `0x40` read: the receive bit is cleared, the others kept. -/
theorem test_disable_write :
    after State.history (exec .disableInterrupts (inMain .disableInterrupts .mWImsc none [] []))
    = some [.write .main 0x4000C038#32 0x40#32] := by decide
/-- M8: overwriting writes zero. -/
theorem test_disable_overwrite :
    after State.history (exec .disableInterrupts
      { inMain .disableInterrupts .mWImsc none [] [] with cfg := { cfg with imscUpdate := .overwrite } })
    = some [.write .main 0x4000C038#32 0#32] := by decide
/-- E1. -/
theorem test_clear_errors : after State.history (exec .clearErrors (inMain .clearErrors .eWEcr none [] []))
    = some [.write .main 0x4000C004#32 0xFFFFFFFF#32] := by decide
/-- E2: `R(RSR_ECR) -> 0x5` is Framing. -/
theorem test_get_error_status :
    after (fun t => t.m.phase) (exec .getErrorStatus (inMain .getErrorStatus .qRRsr none [5#32] []))
    = some (.done .framing) := by decide
/-- H1: every bit of `MIS` but the receive bit: nothing else is done. -/
theorem test_irq_spurious :
    after (fun t => t.q.phase) (exec .irqHandler (inIrq .hRMis none [0xFFFFFFEF#32] [])) = some .hDone := by decide
/-- H7: the `ICR` write is the receive bit alone. -/
theorem test_irq_clear : after State.history (exec .irqHandler (inIrq .hWIcr (some .handler) [] []))
    = some [.write .irq 0x4000C044#32 0x10#32] := by decide

/-- From reset, a placed word of each row is what the very next step accepts or dispatches (40_common R126, the IDLE
rows, `match` of R92 with every operand zero). -/
theorem test_first_step_after_reset :
    [0x100000000000, 0x200000000000, 0x300000000000, 0x400000000000, 0x500000000000, 0x600000000000, 0x700000000000,
      0x800000000000, 0x900000000000].map (fun w =>
        after (fun t => (t.m.phase, t.q.phase)) (step (State.reset.withFetchWord 48 w)))
    = [ some (.done .invalidParam, .idle), some (.tRFlag, .idle), some (.done .invalidParam, .idle),
        some (.done .invalidParam, .idle), some (.mRImsc, .idle), some (.mRImsc, .idle), some (.eWEcr, .idle),
        some (.qRRsr, .idle), some (.idle, .hRMis) ] := by decide

/-! ### Witnesses: encoding and decoding -/

theorem witness_EncodeDecodeRoundTrip : (Instr.sendString true [0xFF#8] 0xFFFFFFFF#32).wellFormed = true := by decide
theorem witness_DecodedWordIsItsEncoding : decode ⟨.main, 0x20FFFFFFFFFF#48, []⟩ = .ok (.sendChar 0xFF#8 0xFFFFFFFF#32) := by
  decide
/-- Every row is spelled by its own match under its own tag, and not under the other. -/
theorem witness_WordSpellsRowByMatchAndMask :
    rows.all (fun r => r.spelledBy ⟨r.ctx, r.mtch, []⟩ && !r.spelledBy ⟨if r.ctx = .main then .irq else .main, r.mtch, []⟩)
      = true := by decide

/-- The idle machine with a command offered. -/
def offered (o : Offer) : State := { idle [] [] with port := [o] }

/-- One word for each way to spell no operation. -/
def unspelled : List Offer :=
  [⟨.main, 0x000000000000#48, []⟩, ⟨.main, 0xA00000000000#48, []⟩, ⟨.main, 0x220000000000#48, []⟩,
    ⟨.main, 0x11000001C200#48, []⟩, ⟨.main, 0x3041000003E8#48, []⟩, ⟨.main, 0x500000000001#48, []⟩,
    ⟨.main, 0x900000000000#48, []⟩, ⟨.irq, 0x700000000000#48, []⟩]

theorem witness_UnspelledWordIsRefused : ∀ o ∈ unspelled,
    bothIdle (offered o) ∧ nextTurn (offered o) = .main ∧ (offered o).port = o :: []
      ∧ ∀ r ∈ rows, r.spelledBy o = false := by
  simp only [bothIdle]
  decide
theorem witness_ErrorStatusCodes : ErrorStatus.hardwareError.code = ErrorStatus.hardwareError.code := rfl

/-! ### Witnesses: the step -/

theorem witness_StepRuns_handler : (inIrq .hRMis none [0#32] []).q.busy = true := by decide
theorem witness_StepRuns_dispatch :
    let s := { idle [] [] with turns := [.dispatch] }
    s.q.busy = false ∧ nextTurn s = .dispatch := by decide
theorem witness_StepRuns_running :
    let s := inMain .clearErrors .eWEcr none [] []
    s.q.busy = false ∧ nextTurn s = .main ∧ s.m.busy = true ∧ running s = some .clearErrors := by decide
theorem witness_StepRuns_accept :
    let s := offered ⟨.main, 0x700000000000#48, []⟩
    s.q.busy = false ∧ nextTurn s = .main ∧ s.m.busy = false ∧ s.port = ⟨.main, 0x700000000000#48, []⟩ :: []
      ∧ decode ⟨.main, 0x700000000000#48, []⟩ = .ok .clearErrors := by decide
theorem witness_StepRuns_nothing :
    let s := idle [] []
    s.q.busy = false ∧ nextTurn s = .main ∧ s.m.busy = false ∧ s.port = [] := by decide
theorem witness_FetchWordRunsNext : decodeTableWord 48 0x900000000000 = some .irqHandler := by decide
theorem witness_UnwrittenResultReadsFault :
    (idle [] []).result = none ∧ (idle [] []).outChar = none
      ∧ { idle [] [] with result := some 9#4 }.result = some 9#4
      ∧ { idle [] [] with outChar := some 0#8 }.outChar = some 0#8 := by decide
theorem witness_RegisterAddressesAligned : { cfg with uartBase := 0xFFFFFFB8#32 }.wellFormed = true := by decide
theorem witness_DivisorSplitsExactly :
    { cfg with clockHz := 4294967295 }.wellFormed = true ∧ 1#32 ≠ 0#32 ∧ 0xFFFFFFFF#32 ≠ 0#32 := by decide

/-! ### Witnesses: the tables of events -/

theorem witness_IdleContextAccepts : bothIdle (idle [] []) ∧ (inMain .clearErrors .eWEcr none [] []).q.busy = false := by
  simp only [bothIdle]
  decide

/-- The operation is in progress in the micro-state named, and nothing preempts it. -/
def inProgress (i : Instr) (p : Phase) (s : State) : Bool :=
  s.q.busy == false && s.m.busy && running s == some i && s.m.phase == p

theorem witness_InitEventsFollowTable :
    [Phase.iWCtrl0, .iWIcr, .iWIbrd, .iWFbrd, .iWLcr, .iWCtrlEn, .iRCtrl].all (fun p =>
      inProgress (.init 1500000#32) p (inMain (.init 1500000#32) p none [0x301#32] [])) = true
    ∧ inProgress (.init 1500001#32) .iWIcr (inMain (.init 1500001#32) .iWIcr none [] []) = true
    ∧ cfg.clockHz / (16 * (1500000#32).toNat) ≠ 0 ∧ cfg.clockHz / (16 * (1500001#32).toNat) = 0
    ∧ busAnswer .main .ctrl (inMain (.init 1500000#32) .iRCtrl none [0x301#32] []) = 0x301#32
    ∧ busAnswer .main .ctrl (inMain (.init 1500000#32) .iRCtrl none [0x300#32] []) = 0x300#32 := by decide

/-- The micro-states of a transmission, with elapsed time exactly at the budget. -/
theorem witness_SendPollEventsFollowTable :
    [Phase.tStart, .tRFlag, .tNow, .tRRsr].all (fun p =>
      inProgress (.sendChar 0x41#8 1000#32) p
        (inMain (.sendChar 0x41#8 1000#32) p (some .sendChar) [0#32] [6000#32])
      && inProgress (.sendString true [0x4F#8] 1000#32) p
        (inMain (.sendString true [0x4F#8] 1000#32) p (some .sendString) [0#32] [6000#32])) = true
    ∧ clockAnswer .main (inMain (.sendChar 0x41#8 1000#32) .tNow (some .sendChar) [0#32] [6000#32]) = 6000#32
    ∧ (6000#32 - (inMain (.sendChar 0x41#8 1000#32) .tNow (some .sendChar) [0#32] [6000#32]).m.tStart).toNat
        ≤ (1000#32).toNat
    ∧ busAnswer .main .rsrEcr (inMain (.sendChar 0x41#8 1000#32) .tRRsr (some .sendChar) [0#32] []) &&& cfg.rsrAny
        = 0#32 := by decide

/-- Elapsed time one past the budget; one error bit; the write. -/
theorem witness_SendCharEndEventsFollowTable :
    [Phase.tNow, .tRRsr, .tWData].all (fun p =>
      let s := inMain (.sendChar 0x41#8 1000#32) p (some .sendChar) [1#32] [6001#32]
      inProgress (.sendChar 0x41#8 1000#32) p s && s.m.kont == some .sendChar) = true
    ∧ (1000#32).toNat < (6001#32 - (inMain (.sendChar 0x41#8 1000#32) .tNow none [] []).m.tStart).toNat
    ∧ 1#32 &&& cfg.rsrAny ≠ 0#32 := by decide

/-- The same for a string, at its last character and before it. -/
theorem witness_SendStringEndEventsFollowTable :
    [Phase.tNow, .tRRsr, .tWData].all (fun p =>
      let s := inMain (.sendString true [0x4F#8, 0x4B#8] 1000#32) p (some .sendString) [1#32] [6001#32]
      inProgress (.sendString true [0x4F#8, 0x4B#8] 1000#32) p s && s.m.kont == some .sendString
        && [0x4F#8, 0x4B#8][s.latch.idx + 1]? == some 0x4B#8) = true
    ∧ (let s := inMain (.sendString true [0x4F#8] 0#32) .tWData (some .sendString) [] []
       inProgress (.sendString true [0x4F#8] 0#32) .tWData s = true ∧ s.latch.idx + 1 = [0x4F#8].length) := by decide

theorem witness_GetCharEventsFollowTable :
    [Phase.gStart, .gRFlag, .gNow, .gRRsr, .gRData].all (fun p =>
      let s := inMain (.getChar true 1000#32) p (some .getChar) [0#32] [6000#32]
      inProgress (.getChar true 1000#32) p s && s.m.kont == some .getChar) = true := by decide

theorem witness_MaskAndErrorEventsFollowTable :
    inProgress .enableInterrupts .mRImsc (inMain .enableInterrupts .mRImsc none [0#32] []) = true
    ∧ inProgress .disableInterrupts .mRImsc (inMain .disableInterrupts .mRImsc none [0#32] []) = true
    ∧ inProgress .enableInterrupts .mWImsc (inMain .enableInterrupts .mWImsc none [] []) = true
    ∧ inProgress .disableInterrupts .mWImsc (inMain .disableInterrupts .mWImsc none [] []) = true
    ∧ inProgress .clearErrors .eWEcr (inMain .clearErrors .eWEcr none [] []) = true
    ∧ inProgress .getErrorStatus .qRRsr (inMain .getErrorStatus .qRRsr none [0xF#32] []) = true := by decide

/-- Every operation at its completion. -/
theorem witness_CompletionReports :
    [Instr.init 9600#32, .sendChar 0#8 0#32, .getChar true 0#32, .sendString true [] 0#32, .enableInterrupts,
      .disableInterrupts, .clearErrors, .getErrorStatus].all (fun i =>
      inProgress i (.done .ok) (inMain i (.done .ok) none [] [])) = true := by decide

/-- The handler is in the micro-state named of a run that has found the receive bit. -/
def inHandler (p : Phase) (s : State) : Bool := s.q.busy && s.q.phase == p && s.q.kont == some .handler

theorem witness_HandlerEventsFollowTable :
    [Phase.hRMis, .gRRsr, .gRData, .tRRsr, .tWData, .hWIcr, .hDone].all (fun p =>
      inHandler p (inIrq p (some .handler) [0x10#32] [])) = true
    ∧ busAnswer .irq .mis (inIrq .hRMis (some .handler) [0x10#32] []) &&& cfg.intRx ≠ 0#32
    ∧ busAnswer .irq .mis (inIrq .hRMis (some .handler) [0xFFFFFFEF#32] []) &&& cfg.intRx = 0#32 := by decide
theorem witness_HandlerPollEventsFollowTable :
    [Phase.gStart, .gRFlag, .gNow, .tStart, .tRFlag, .tNow].all (fun p =>
      inHandler p (inIrq p (some .handler) [0x10#32] [1000#32])) = true := by decide
theorem witness_BusyContextAcceptsNothing :
    Instr.clearErrors.ctx = .main ∧ Instr.clearErrors.wellFormed = true
      ∧ (inIrq .hRMis none [] []).q.busy = true
      ∧ (inMain .getErrorStatus .qRRsr none [] []).m.busy = true
      ∧ running (inMain .getErrorStatus .qRRsr none [] []) ≠ some .clearErrors := by decide

/-! ### Witnesses: whole operations, each from a vector of 95 -/

/-- I1. -/
theorem witness_InitRunsItsPseudocode : bothIdle (idle [0x301#32] []) ∧
    opSpec cfg (.init 115200#32) [0x301#32] [] = some ⟨.ok, none, some .enabled, some ⟨115200#32, 13, 0#32, 13#32⟩,
      [.write .main 0x4000C030#32 0#32, .write .main 0x4000C044#32 0xFFFFFFFF#32, .write .main 0x4000C024#32 0#32,
        .write .main 0x4000C028#32 0xD#32, .write .main 0x4000C02C#32 0x60#32, .write .main 0x4000C030#32 0x301#32,
        .read .main 0x4000C030#32 0x301#32], [], []⟩ := by
  simp only [bothIdle]
  decide
/-- T2. -/
theorem witness_SendCharRunsItsPseudocode : bothIdle (idle [0x20#32, 0x20#32] [5000#32, 6000#32, 6001#32]) ∧
    opSpec cfg (.sendChar 0x41#8 1000#32) [0x20#32, 0x20#32] [5000#32, 6000#32, 6001#32]
      = some ⟨.timeout, none, none, none,
        [.now .main 5000#32, .read .main 0x4000C018#32 0x20#32, .now .main 6000#32,
          .read .main 0x4000C018#32 0x20#32, .now .main 6001#32], [], []⟩ := by
  simp only [bothIdle]
  decide
/-- G1, and G7. -/
theorem witness_GetCharRunsItsPseudocode : bothIdle (idle [0x10#32, 0#32, 0#32, 0xF41#32] [0#32, 3#32]) ∧
    opSpec cfg (.getChar true 1000#32) [0x10#32, 0#32, 0#32, 0xF41#32] [0#32, 3#32]
      = some ⟨.ok, some 0x41#8, none, none,
        [.now .main 0#32, .read .main 0x4000C018#32 0x10#32, .now .main 3#32, .read .main 0x4000C018#32 0#32,
          .read .main 0x4000C004#32 0#32, .read .main 0x4000C000#32 0xF41#32], [], []⟩
    ∧ opSpec cfg (.getChar false 1000#32) [] [] = some ⟨.invalidParam, none, none, none, [], [], []⟩ := by
  simp only [bothIdle]
  decide
/-- S5, S2 and S3. -/
theorem witness_SendStringRunsItsPseudocode : bothIdle (idle [0#32, 0#32, 0#32, 2#32] []) ∧
    opSpec cfg (.sendString true [0x4F#8, 0x4B#8] 0#32) [0#32, 0#32, 0#32, 2#32] []
      = some ⟨.hardwareError, none, none, none,
        [.read .main 0x4000C018#32 0#32, .read .main 0x4000C004#32 0#32, .write .main 0x4000C000#32 0x4F#32,
          .read .main 0x4000C018#32 0#32, .read .main 0x4000C004#32 2#32], [], []⟩
    ∧ opSpec cfg (.sendString true [] 1000#32) [] [] = some ⟨.ok, none, none, none, [], [], []⟩
    ∧ opSpec cfg (.sendString false [] 1000#32) [] [] = some ⟨.invalidParam, none, none, none, [], [], []⟩ := by
  simp only [bothIdle]
  decide
/-- M6, M8, E1, E2. -/
theorem witness_MaskAndErrorOperationsRunTheirPseudocode : bothIdle (idle [0xFFFFFFFF#32] []) ∧
    opSpec cfg .disableInterrupts [0xFFFFFFFF#32] [] = some ⟨.ok, none, none, none,
      [.read .main 0x4000C038#32 0xFFFFFFFF#32, .write .main 0x4000C038#32 0xFFFFFFEF#32], [], []⟩
    ∧ opSpec { cfg with imscUpdate := .overwrite } .disableInterrupts [] [] = some ⟨.ok, none, none, none,
      [.write .main 0x4000C038#32 0#32], [], []⟩
    ∧ opSpec cfg .clearErrors [] [] = some ⟨.ok, none, none, none, [.write .main 0x4000C004#32 0xFFFFFFFF#32], [], []⟩
    ∧ opSpec cfg .getErrorStatus [5#32] [] = some ⟨.framing, none, none, none, [.read .main 0x4000C004#32 5#32], [], []⟩ := by
  simp only [bothIdle]
  decide
/-- H5: the echo fails, and the byte is delivered to nobody. -/
theorem witness_HandlerRunsItsPseudocode : (idle [] []).q.busy = false ∧
    handlerSpec cfg [0x10#32, 0#32, 0#32, 0x31#32, 0x20#32] [0#32, 0#32, 1001#32] = some ⟨some 0x31#8,
      [.read .irq 0x4000C040#32 0x10#32, .now .irq 0#32, .read .irq 0x4000C018#32 0#32, .read .irq 0x4000C004#32 0#32,
        .read .irq 0x4000C000#32 0x31#32, .now .irq 0#32, .read .irq 0x4000C018#32 0x20#32, .now .irq 1001#32,
        .write .irq 0x4000C044#32 0x10#32], [], []⟩ := by decide
theorem witness_PollWithoutDeadlineNeverEnds : bothIdle (idle [0x20#32, 0xFFFFFFFF#32] []) ∧
    ∀ v ∈ [0x20#32, 0xFFFFFFFF#32], anySet v cfg.flagTxff = true :=
  ⟨⟨rfl, rfl⟩, by simp [anySet, cfg]⟩
/-- The start of each poll, and an answer that says the FIFO is not ready, twice, while the clock stands at 7. -/
theorem witness_PollWithStoppedClockNeverEnds :
    let answers := [0x20#32, 0xFFFFFFFF#32]
    let rx := [0x10#32, 0xFFFFFFFF#32]
    let now := [7#32, 7#32, 7#32]
    now = List.replicate (answers.length + 1) 7#32 ∧ now = List.replicate (rx.length + 1) 7#32
      ∧ (∀ v ∈ answers, anySet v cfg.flagTxff = true) ∧ (∀ v ∈ rx, anySet v cfg.flagRxfe = true)
      ∧ inProgress (.sendChar 0x41#8 1#32) .tStart (inMain (.sendChar 0x41#8 1#32) .tStart (some .sendChar) answers now)
      ∧ inProgress (.sendString true [0x41#8] 1#32) .tStart
        (inMain (.sendString true [0x41#8] 1#32) .tStart (some .sendString) answers now)
      ∧ inProgress (.getChar true 1#32) .gStart (inMain (.getChar true 1#32) .gStart (some .getChar) rx now)
      ∧ (Instr.sendChar 0x41#8 1#32).arg ≠ 0#32 ∧ (Instr.sendString true [0x41#8] 1#32).arg ≠ 0#32
      ∧ (Instr.getChar true 1#32).arg ≠ 0#32
      ∧ inHandler .tStart (inIrq .tStart (some .handler) answers now)
      ∧ inHandler .gStart (inIrq .gStart (some .handler) rx now) ∧ cfg.defaultTimeoutMs ≠ 0#32 := by
  refine ⟨rfl, rfl, ?_, ?_, by decide, by decide, by decide, by decide, by decide, by decide, by decide, by decide,
    by decide⟩ <;> simp [anySet, cfg]

/-! ### Witnesses: the invariant and the whole-machine rules -/

theorem inv_idle (bus clock : List Word) : Inv (idle bus clock) where
  mainIdle := fun _ => ⟨rfl, rfl⟩
  mainBusy := nofun
  irqIdle := fun _ => ⟨rfl, rfl⟩
  irqBusy := nofun
  nullString := fun _ => rfl
  index := Nat.le_refl 0
  configuring := by simp [idle, State.reset, Seq.reset, configuringPhase]
  resultIsLast := rfl
  resultNamed := nofun
  opCfgOfBaud := nofun

theorem inv_inMain {i : Instr} {p : Phase} {k : Option Kont} {bus clock : List Word}
    (hf : mainFitsAt p (inMain i p k bus clock)) (hn : i.p = false → i.payload = [])
    (hc : configuringPhase p = false) : Inv (inMain i p k bus clock) :=
  inv_of_main (inv_idle bus clock) rfl rfl rfl rfl rfl hf hn (Nat.zero_le _)
    (by show DevState.disabled = .configuring ↔ configuringPhase p = true; simp [hc]) nofun

theorem witness_StepKeepsInvariant :
    Inv (offered ⟨.main, 0x3000000003E8#48, []⟩) ∧ ∃ t, step (offered ⟨.main, 0x3000000003E8#48, []⟩) = .next t :=
  ⟨inv_of_irq (inv_idle [] []) rfl rfl rfl rfl rfl rfl rfl rfl (fun _ => ⟨rfl, rfl⟩) nofun, _, rfl⟩
theorem witness_EveryStepIsPossible :
    Inv (inMain (.sendChar 0x41#8 1#32) .tNow (some .sendChar) [] [])
      ∧ ∀ o ∈ (inMain (.sendChar 0x41#8 1#32) .tNow (some .sendChar) [] []).port.head?, ∃ i, decode o = .ok i :=
  ⟨inv_inMain ⟨.inl ⟨rfl, rfl⟩, by decide⟩ (fun _ => rfl) rfl, nofun⟩
theorem witness_TransactionsStayLegal :
    (∀ e ∈ (inMain .clearErrors .eWEcr none [] []).history, legalEvent cfg e)
      ∧ ∃ t, step (inMain .clearErrors .eWEcr none [] []) = .next t := ⟨nofun, _, rfl⟩
theorem witness_OneTransactionPerEvent :
    ∃ t, exec .clearErrors (inMain .clearErrors .eWEcr none [] []) = .next t := ⟨_, rfl⟩
theorem witness_GhostsWrittenByInitReadByNothing :
    (∃ t, exec .clearErrors (inMain .clearErrors .eWEcr none [] []) = .next t) ∧ ∀ baud, Instr.clearErrors ≠ .init baud :=
  ⟨⟨_, rfl⟩, nofun⟩
theorem witness_HistoryIsNeverRead :
    let s := inMain .getErrorStatus .qRRsr none [5#32] [0#32]
    s.busAnswers ≠ [] ∧ s.clockAnswers ≠ [] ∧ ∃ t, exec .getErrorStatus s = .next t := ⟨nofun, nofun, _, rfl⟩
theorem witness_HandlerLeavesMainContext :
    ∃ t, execN .irqHandler 3 { inMain (.sendChar 0x41#8 1#32) .tNow (some .sendChar) [0#32] [] with turns := [] } = .next t :=
  ⟨_, rfl⟩
theorem witness_ResultWrittenByCompletionOnly :
    ∃ t, exec .clearErrors (inMain .clearErrors (.done .ok) none [] []) = .next t := ⟨_, rfl⟩
theorem witness_ReportedCodesFollowMatrix :
    Inv (inMain .getErrorStatus (.done .noise) none [] [])
      ∧ ∃ t, step (inMain .getErrorStatus (.done .noise) none [] []) = .next t :=
  ⟨inv_inMain ⟨rfl, nofun⟩ (fun _ => rfl) rfl, _, rfl⟩
theorem witness_OutCharWrittenByDataReadOnly :
    after (fun t => decide (t.outChar ≠ (idle [] []).outChar))
      (exec (.getChar true 0#32) (inMain (.getChar true 0#32) .gRData (some .getChar) [0xF41#32] [])) = some true := by decide
theorem witness_TimeoutNeedsBudget :
    Inv (inMain (.sendChar 0x41#8 1000#32) .tNow (some .sendChar) [] [6001#32])
      ∧ after (fun t => t.m.phase)
        (exec (.sendChar 0x41#8 1000#32) (inMain (.sendChar 0x41#8 1000#32) .tNow (some .sendChar) [] [6001#32]))
        = some (.done .timeout)
      ∧ (inMain (.sendChar 0x41#8 1000#32) .tNow (some .sendChar) [] [6001#32]).m.phase ≠ .done .timeout :=
  ⟨inv_inMain ⟨.inl ⟨rfl, rfl⟩, by decide⟩ (fun _ => rfl) rfl, by decide, by decide⟩
theorem witness_SendCharWritesDataExactlyOnOk :
    let s := inMain (.sendChar 0x41#8 0#32) .tWData (some .sendChar) [] []
    Inv s ∧ s.q.busy = false ∧ s.m.busy = true ∧ running s = some (.sendChar 0x41#8 0#32)
      ∧ ∃ t, exec (.sendChar 0x41#8 0#32) s = .next t ∧ t.m.phase = .done .ok
        ∧ t.history = s.history ++ [.write .main (Cfg.addr s.cfg .data) 0x41#32] :=
  ⟨inv_inMain (.inl ⟨rfl, rfl⟩) (fun _ => rfl) rfl, rfl, rfl, by decide, _, rfl, rfl, by decide⟩
theorem witness_GetCharNeverWrites :
    ∃ t, exec (.getChar true 0#32) (inMain (.getChar true 0#32) .gRRsr (some .getChar) [0#32] []) = .next t := ⟨_, rfl⟩
theorem witness_InitTouchesNothingElse :
    after State.history (exec (.init 9600#32) (inMain (.init 9600#32) .iRCtrl none [1#32] []))
      = some ([] ++ [.read .main (Cfg.addr cfg .ctrl) 1#32]) := by decide

/-! ### Witnesses: frames -/

/-- Each operation at an event of its run that is not the completion. -/
theorem witness_Frames :
    (∃ t, exec (.init 9600#32) (inMain (.init 9600#32) .iWLcr none [] []) = .next t)
    ∧ (∃ t, exec (.sendChar 0#8 0#32) (inMain (.sendChar 0#8 0#32) .tWData (some .sendChar) [] []) = .next t)
    ∧ (∃ t, exec (.sendString true [0#8] 0#32) (inMain (.sendString true [0#8] 0#32) .tWData (some .sendString) [] [])
        = .next t)
    ∧ (∃ t, exec (.getChar true 0#32) (inMain (.getChar true 0#32) .gRRsr (some .getChar) [0#32] []) = .next t)
    ∧ (∃ t, exec .enableInterrupts (inMain .enableInterrupts .mWImsc none [] []) = .next t)
    ∧ (∃ t, exec .disableInterrupts (inMain .disableInterrupts .mWImsc none [] []) = .next t)
    ∧ (∃ t, exec .clearErrors (inMain .clearErrors .eWEcr none [] []) = .next t)
    ∧ (∃ t, exec .getErrorStatus (inMain .getErrorStatus .qRRsr none [0#32] []) = .next t)
    ∧ (∃ t, exec .irqHandler (inIrq .hWIcr (some .handler) [] []) = .next t) :=
  ⟨⟨_, rfl⟩, ⟨_, rfl⟩, ⟨_, rfl⟩, ⟨_, rfl⟩, ⟨_, rfl⟩, ⟨_, rfl⟩, ⟨_, rfl⟩, ⟨_, rfl⟩, ⟨_, rfl⟩⟩

/-! ### Witnesses: the premises on the peripheral, and runs of a string -/

/-- A quiet peripheral with these recorded errors and this interrupt mask. -/
def quiet (errors imsc : Word) : Peripheral :=
  { txFull := false, rxFifo := [], sent := [], errors := errors, raw := 0x10#32, imsc := imsc }

/-- E3: two queries that both read `0xA`. -/
theorem witness_ErrorQueries_twice :
    let s := idle [0xA#32, 0xA#32] []
    let e : Observed := ⟨.read .main 0x4000C004#32 0xA#32, quiet 0xA#32 0#32, quiet 0xA#32 0#32⟩
    ∃ t u, bothIdle s ∧ execN .getErrorStatus 3 s = .next t ∧ execN .getErrorStatus 3 t = .next u
      ∧ observedRun s u [e, e] ∧ e.statusReadPure s.cfg ∧ e.before = e.after :=
  ⟨_, _, ⟨rfl, rfl⟩, rfl, rfl, rfl, (by intro c v h; injection h with h1 h2 h3; subst h3; decide), rfl⟩
/-- E4: the clear, then a query that reads `0x0`. -/
theorem witness_ErrorQueries_cleared :
    let s := idle [0#32] []
    let w : Observed := ⟨.write .main 0x4000C004#32 0xFFFFFFFF#32, quiet 0x8#32 0#32, quiet 0#32 0#32⟩
    let e : Observed := ⟨.read .main 0x4000C004#32 0#32, quiet 0#32 0#32, quiet 0#32 0#32⟩
    ∃ t u, bothIdle s ∧ execN .clearErrors 3 s = .next t ∧ execN .getErrorStatus 3 t = .next u
      ∧ observedRun s u [w, e] ∧ e.statusReadPure s.cfg ∧ w.clearClears s.cfg ∧ e.before.errors = w.after.errors :=
  ⟨_, _, ⟨rfl, rfl⟩, rfl, rfl, rfl, (by intro c v h; injection h with h1 h2 h3; subst h3; decide),
    (by intro c _; decide), rfl⟩
/-- The mask `0x40` is written, the operation completes, and a dispatch then reads `MIS` as `0`. -/
theorem witness_DisabledHandlerOnlyReadsMis :
    let s := inMain .disableInterrupts .mWImsc none [0#32] []
    let w : Observed := ⟨.write .main 0x4000C038#32 0x40#32, quiet 0#32 0x50#32, quiet 0#32 0x40#32⟩
    let r : Observed := ⟨.read .irq 0x4000C040#32 0#32, quiet 0#32 0x40#32, quiet 0#32 0x40#32⟩
    ∃ t u, s.q.busy = false ∧ s.m.busy = true ∧ running s = some .disableInterrupts ∧ s.m.phase = .mWImsc
      ∧ exec .disableInterrupts s = .next t ∧ observedRun s t [w] ∧ exec .disableInterrupts t = .next u
      ∧ u.m.busy = false ∧ u.q.busy = false ∧ u.cfg = s.cfg
      ∧ r.event = .read .irq (Cfg.addr u.cfg .mis) (busAnswer .irq .mis (enterHandler u))
      ∧ w.maskedIsRestricted s.cfg ∧ r.maskedIsRestricted s.cfg ∧ r.before.imsc = w.after.imsc :=
  ⟨_, _, rfl, rfl, by decide, rfl, rfl, rfl, rfl, rfl, rfl, rfl, by decide,
    ⟨nofun, by intro c v h; injection h with h1 h2 h3⟩,
    ⟨by intro c v h; injection h with h1 h2 h3; subst h3; decide, nofun⟩, rfl⟩
/-- I1 at the least clock R145 names. -/
theorem witness_InitSucceedsWhenResponsive :
    let s := { idle [0x301#32] [] with cfg := { cfg with clockHz := 1843200 } }
    let os := [Event.write .main 0x4000C030#32 0#32, .write .main 0x4000C044#32 0xFFFFFFFF#32,
      .write .main 0x4000C024#32 0#32, .write .main 0x4000C028#32 1#32, .write .main 0x4000C02C#32 0x60#32,
      .write .main 0x4000C030#32 0x301#32, .read .main 0x4000C030#32 0x301#32].map fun e =>
        Observed.mk e (quiet 0#32 0#32) (quiet 0#32 0#32)
    ∃ t, bothIdle s ∧ 1843200 ≤ s.cfg.clockHz ∧ s.cfg.clockHz < 2 ^ 32 ∧ execN (.init 115200#32) 9 s = .next t
      ∧ observedRun s t os ∧ ∀ o ∈ os, o.responsive s.cfg := by
  refine ⟨_, ⟨rfl, rfl⟩, by decide, by decide, rfl, rfl, ?_⟩
  intro o ho
  simp only [List.map_cons, List.map_nil, List.mem_cons, List.not_mem_nil, or_false] at ho
  rcases ho with rfl | rfl | rfl | rfl | rfl | rfl | rfl <;> intro c v h <;>
    first | cases h; done | (injection h with h1 h2 h3; subst h3; decide)
/-- The main context in the middle of an operation that moves at the next two boundaries: a flag answer, then a status
answer. -/
def inMainTwice (i : Instr) (p : Phase) (k : Kont) : State :=
  { inMain i p (some k) [0#32, 1#32] [] with turns := [.main, .main] }

theorem inv_inMainTwice {i : Instr} {p : Phase} {k : Kont} (h : Inv (inMain i p (some k) [0#32, 1#32] [])) :
    Inv (inMainTwice i p k) :=
  inv_of_irq h rfl rfl rfl rfl rfl rfl rfl rfl h.irqIdle h.irqBusy

/-- A read of `RSR_ECR` by the context, and the flag read before it, while the framing error is recorded. -/
def framingFlag (c : Ctx) : Observed := ⟨.read c 0x4000C018#32 0#32, quiet 1#32 0#32, quiet 1#32 0#32⟩
def framingStatus (c : Ctx) : Observed := ⟨.read c 0x4000C004#32 1#32, quiet 1#32 0#32, quiet 1#32 0#32⟩

/-- From `s`, a step that reads the flag and a step that reads the status with the framing error recorded. -/
def readsFraming (c : Ctx) (s : State) (atStatus : State → Prop) : Prop :=
  Inv s ∧ s.cfg = cfg ∧ ∃ u t, stepN 1 s = .next u ∧ observedRun s u [framingFlag c] ∧ atStatus u
    ∧ step u = .next t ∧ observedRun u t [framingStatus c]

/-- The premises on the peripheral, on either context. -/
theorem witness_RecordedErrorEndsTransfers_premises (c : Ctx) :
    errorsStayRecorded cfg ([framingFlag c] ++ [framingStatus c]) ∧ (∀ o ∈ [framingFlag c], ¬o.clearsErrors cfg)
      ∧ (framingStatus c).statusReadPure cfg ∧ 1#32 ≠ 0#32 ∧ 1#32 &&& cfg.rsrAny = 1#32
      ∧ ∀ o ∈ ([framingFlag c] ++ [framingStatus c]).head?, o.before.errors &&& 1#32 = 1#32 := by
  refine ⟨⟨fun _ => ?_, ?_, fun _ => ?_⟩, ?_, ?_, by decide, by decide, ?_⟩
  iterate 3 · cases c <;> decide
  · rintro o ho ⟨c', v, h⟩
    simp only [List.mem_singleton] at ho
    subst ho
    cases h
  · intro c' v h
    injection h with h1 h2 h3
    subst h3
    exact ⟨rfl, rfl⟩
  · intro o ho
    cases ho
    cases c <;> decide

/-- G8 and T12, and their like for a string and for the handler's receive and echo. -/
theorem witness_RecordedErrorEndsTransfers :
    readsFraming .main (inMainTwice (.sendChar 0x41#8 0#32) .tRFlag .sendChar)
      (fun u => u.q.busy = false ∧ u.m.phase = .tRRsr)
    ∧ readsFraming .main (inMainTwice (.sendString true [0#8] 0#32) .tRFlag .sendString)
        (fun u => u.q.busy = false ∧ u.m.phase = .tRRsr)
    ∧ readsFraming .main (inMainTwice (.getChar true 0#32) .gRFlag .getChar)
        (fun u => u.q.busy = false ∧ u.m.phase = .gRRsr)
    ∧ readsFraming .irq (inIrq .gRFlag (some .handler) [0#32, 1#32] []) (fun u => u.q.busy = true ∧ u.q.phase = .gRRsr)
    ∧ readsFraming .irq (inIrq .tRFlag (some .handler) [0#32, 1#32] [])
        (fun u => u.q.busy = true ∧ u.q.phase = .tRRsr) :=
  ⟨⟨inv_inMainTwice (inv_inMain (.inl ⟨rfl, rfl⟩) (fun _ => rfl) rfl), rfl, _, _, rfl, rfl, ⟨rfl, rfl⟩, rfl, rfl⟩,
    ⟨inv_inMainTwice (inv_inMain (.inr ⟨rfl, rfl, rfl⟩) nofun rfl), rfl, _, _, rfl, rfl, ⟨rfl, rfl⟩, rfl, rfl⟩,
    ⟨inv_inMainTwice (inv_inMain ⟨rfl, rfl, rfl⟩ nofun rfl), rfl, _, _, rfl, rfl, ⟨rfl, rfl⟩, rfl, rfl⟩,
    ⟨inv_of_irq (inv_idle [] []) rfl rfl rfl rfl rfl rfl rfl rfl nofun (fun _ => rfl), rfl, _, _, rfl, rfl,
      ⟨rfl, rfl⟩, rfl, rfl⟩,
    ⟨inv_of_irq (inv_idle [] []) rfl rfl rfl rfl rfl rfl rfl rfl nofun (fun _ => rfl), rfl, _, _, rfl, rfl,
      ⟨rfl, rfl⟩, rfl, rfl⟩⟩
/-- S5: completed by a failure at the second character, and S2: the empty string. -/
theorem witness_SendStringWritesPrefixInOrder :
    (let s := idle [0#32, 0#32, 0#32, 2#32] []
     bothIdle s ∧ ∃ t r, execN (.sendString true [0x4F#8, 0x4B#8] 0#32) 7 s = .next t ∧ t.m.busy = false
      ∧ t.results = s.results ++ [r])
    ∧ (let s := idle [] []
     bothIdle s ∧ ∃ t r, execN (.sendString true [] 0#32) 2 s = .next t ∧ t.m.busy = false
      ∧ t.results = s.results ++ [r]) :=
  ⟨⟨⟨rfl, rfl⟩, _, _, rfl, rfl, rfl⟩, ⟨⟨rfl, rfl⟩, _, _, rfl, rfl, rfl⟩⟩
/-- Flag answers with the bits of `RSR_ANY` set, status answers with the bit of `FLAG_TXFF` set, and no clock answer
queued; and the empty string. -/
theorem witness_ReadyStringIsSentWhole :
    (let s := idle [0x1F#32, 0x20#32, 0xFFFFFFDF#32, 0xFFFFFFF0#32] []
     bothIdle s ∧ 2 * [0x41#8, 0x54#8].length ≤ s.busAnswers.length
      ∧ ∀ j < [0x41#8, 0x54#8].length, ∀ v,
        (s.busAnswers[2 * j]? = some v → v &&& s.cfg.flagTxff = 0#32)
        ∧ (s.busAnswers[2 * j + 1]? = some v → v &&& s.cfg.rsrAny = 0#32))
    ∧ (let s := idle [] []
     bothIdle s ∧ 2 * ([] : List Byte).length ≤ s.busAnswers.length) := by
  refine ⟨⟨⟨rfl, rfl⟩, Nat.le_refl 4, ?_⟩, ⟨rfl, rfl⟩, Nat.le_refl 0⟩
  intro j hj v
  match j, hj with
  | 0, _ => exact ⟨by rintro ⟨⟩; decide, by rintro ⟨⟩; decide⟩
  | 1, _ => exact ⟨by rintro ⟨⟩; decide, by rintro ⟨⟩; decide⟩

end Sys2Proof.Tests
end

section
/-! SUPPORT. 00_scope section 6 and section 3: an event adds at most one transaction or time sample of its own context to
the history (R11, 20_memory R66), and the configuration at reset is legal (R6). -/

namespace Sys2Proof.Machine

/-! ### One transaction or time sample per event -/

/-- The context that performed a transaction or took a time sample (20_memory R83). -/
def Event.ctx : Event → Ctx
  | .read c _ _ => c
  | .write c _ _ => c
  | .now c _ => c

/-- From `s` to `t` the history grows by one event of context `c`. -/
def addsOneEvent (c : Ctx) (s t : State) : Prop := ∃ e : Event, e.ctx = c ∧ t.history = s.history ++ [e]

/-- From `s` to `t` the history stays as it is or grows by one event of context `c` (00_scope R11). -/
def addsAtMostOneEvent (c : Ctx) (s t : State) : Prop := t.history = s.history ∨ addsOneEvent c s t

/-- Changing the state further, but not the history, adds no further event. -/
theorem addsOneEvent.of_history_eq {c : Ctx} {s u t : State} (hu : addsOneEvent c s u)
    (ht : t.history = u.history) : addsOneEvent c s t := by
  obtain ⟨e, hc, he⟩ := hu
  exact ⟨e, hc, ht.trans he⟩

theorem addsOneEvent.then_goto {c d : Ctx} {p : Phase} {s u : State} (hu : addsOneEvent c s u) :
    addsOneEvent c s (goto d p u) := hu.of_history_eq (goto_history d p u)

theorem readReg_addsOneEvent (c : Ctx) (r : Reg) (s : State) : addsOneEvent c s (readReg c r s) :=
  ⟨_, rfl, readReg_history c r s⟩

theorem writeReg_addsOneEvent (c : Ctx) (r : Reg) (v : Word) (s : State) : addsOneEvent c s (writeReg c r v s) :=
  ⟨_, rfl, writeReg_history c r v s⟩

theorem sampleNow_addsOneEvent (c : Ctx) (s : State) : addsOneEvent c s (sampleNow c s) :=
  ⟨_, rfl, sampleNow_history c s⟩

theorem startClock_addsOneEvent (c : Ctx) (s : State) : addsOneEvent c s (startClock c s) :=
  ⟨_, rfl, startClock_history c s⟩

/-! The ends of the shared sequences add nothing of their own. -/

theorem txEnd_history {c : Ctx} {code : ErrorStatus} {s t : State} (h : txEnd c code s = some t) :
    t.history = s.history := by
  cases c with
  | main =>
    obtain ⟨-, -, hh, -⟩ := txEnd_main_keeps h
    exact hh
  | irq =>
    obtain ⟨-, rfl⟩ := txEnd_irq h
    exact goto_history _ _ _

theorem rxEnd_history {c : Ctx} {code : ErrorStatus} {s t : State} (h : rxEnd c code s = some t) :
    t.history = s.history := by
  cases c with
  | main =>
    obtain ⟨-, rfl⟩ := rxEnd_main h
    split <;> simp
  | irq =>
    obtain ⟨-, rfl⟩ := rxEnd_irq h
    split <;> simp [txStart_eq]

theorem pollFlag_addsOneEvent (c : Ctx) (mask : Word) (ready retry deadline : Phase) (s : State) :
    addsOneEvent c s (pollFlag c mask ready retry deadline s) := by
  rw [pollFlag_eq]
  exact (readReg_addsOneEvent c .flag s).then_goto

theorem sendEvent_addsOneEvent {c : Ctx} {s t : State} (h : sendEvent c s = some t) : addsOneEvent c s t := by
  unfold sendEvent at h
  split at h
  · cases h; exact (startClock_addsOneEvent c s).then_goto
  · cases h; exact pollFlag_addsOneEvent ..
  · have hn := sampleNow_addsOneEvent c s
    split at h
    · exact hn.of_history_eq (txEnd_history h)
    · cases h; exact hn.then_goto
  · have hr := readReg_addsOneEvent c .rsrEcr s
    simp only at h
    split at h
    · exact hr.of_history_eq (txEnd_history h)
    · cases h; exact hr.then_goto
  · exact (writeReg_addsOneEvent c .data _ s).of_history_eq (txEnd_history h)
  · cases h

theorem getEvent_addsOneEvent {c : Ctx} {s t : State} (h : getEvent c s = some t) : addsOneEvent c s t := by
  unfold getEvent at h
  split at h
  · cases h; exact (startClock_addsOneEvent c s).then_goto
  · cases h; exact pollFlag_addsOneEvent ..
  · have hn := sampleNow_addsOneEvent c s
    split at h
    · exact hn.of_history_eq (rxEnd_history h)
    · cases h; exact hn.then_goto
  · have hr := readReg_addsOneEvent c .rsrEcr s
    simp only at h
    split at h
    · cases h; exact hr.then_goto
    · exact hr.of_history_eq (rxEnd_history h)
  · exact (readReg_addsOneEvent c .data s).of_history_eq (rxEnd_history h)
  · cases h

/-! The events of each operation. Only the completion of a main operation and the handler's return add nothing. -/

theorem initEvent_addsAtMostOneEvent {s t : State} (h : initEvent s = some t) : addsAtMostOneEvent .main s t := by
  have hw := fun r v => writeReg_addsOneEvent .main r v s
  unfold initEvent at h
  split at h
  · cases h; exact .inr ((hw .ctrl 0#32).of_history_eq (goto_history _ _ _))
  · simp only at h
    split at h <;> cases h <;> exact .inr ((hw .icr Word.allOnes).of_history_eq (goto_history _ _ _))
  · cases h; exact .inr ((hw .ibrd _).then_goto)
  · cases h; exact .inr ((hw .fbrd _).then_goto)
  · cases h; exact .inr ((hw .lcr _).then_goto)
  · cases h; exact .inr ((hw .ctrl _).then_goto)
  · have hr := readReg_addsOneEvent .main .ctrl s
    simp only at h
    split at h <;> cases h <;> exact .inr (hr.of_history_eq (goto_history _ _ _))
  · cases h; exact .inl (complete_history _ _)
  · cases h

theorem sendCharEvent_addsAtMostOneEvent {s t : State} (h : sendCharEvent s = some t) :
    addsAtMostOneEvent .main s t := by
  unfold sendCharEvent at h
  split at h
  · cases h; exact .inl (complete_history _ _)
  · exact .inr (sendEvent_addsOneEvent h)

/-- Once accepted, `SEND_STRING` goes through the same micro-states as `SEND_CHAR`. -/
theorem sendStringEvent_eq (s : State) : sendStringEvent s = sendCharEvent s := rfl

theorem sendStringEvent_addsAtMostOneEvent {s t : State} (h : sendStringEvent s = some t) :
    addsAtMostOneEvent .main s t :=
  sendCharEvent_addsAtMostOneEvent (sendStringEvent_eq s ▸ h)

theorem getCharEvent_addsAtMostOneEvent {s t : State} (h : getCharEvent s = some t) :
    addsAtMostOneEvent .main s t := by
  unfold getCharEvent at h
  split at h
  · cases h; exact .inl (complete_history _ _)
  · exact .inr (getEvent_addsOneEvent h)

theorem maskEvent_addsAtMostOneEvent {value : Cfg → Word → Word} {s t : State} (h : maskEvent value s = some t) :
    addsAtMostOneEvent .main s t := by
  unfold maskEvent at h
  split at h <;> cases h
  · exact .inr ((readReg_addsOneEvent .main .imsc s).then_goto)
  · exact .inr ((writeReg_addsOneEvent .main .imsc _ s).then_goto)
  · exact .inl (complete_history _ _)

theorem clearErrorsEvent_addsAtMostOneEvent {s t : State} (h : clearErrorsEvent s = some t) :
    addsAtMostOneEvent .main s t := by
  unfold clearErrorsEvent at h
  split at h <;> cases h
  · exact .inr ((writeReg_addsOneEvent .main .rsrEcr _ s).then_goto)
  · exact .inl (complete_history _ _)

theorem getErrorStatusEvent_addsAtMostOneEvent {s t : State} (h : getErrorStatusEvent s = some t) :
    addsAtMostOneEvent .main s t := by
  unfold getErrorStatusEvent at h
  split at h <;> cases h
  · exact .inr ((readReg_addsOneEvent .main .rsrEcr s).then_goto)
  · exact .inl (complete_history _ _)

theorem handlerEvent_addsAtMostOneEvent {s t : State} (h : handlerEvent s = some t) :
    addsAtMostOneEvent .irq s t := by
  unfold handlerEvent at h
  split at h
  · have hr := readReg_addsOneEvent .irq .mis s
    simp only at h
    split at h <;> cases h <;> exact .inr (hr.of_history_eq (by simp [rxStart_eq]))
  · cases h; exact .inr ((writeReg_addsOneEvent .irq .icr _ s).then_goto)
  · cases h; exact .inl (leaveHandler_history s)
  · split at h
    · cases h; exact .inr (getEvent_addsOneEvent ‹_›)
    · exact .inr (sendEvent_addsOneEvent h)

/-! The acceptances touch no hardware (40_common R120). -/

theorem initStart_history (s : State) : (initStart s).history = s.history := by
  unfold initStart
  split <;> exact goto_history _ _ _

theorem sendCharStart_history (s : State) : (sendCharStart s).history = s.history := by
  simp [sendCharStart, txStart_eq]

theorem getCharStart_history (s : State) : (getCharStart s).history = s.history := by
  unfold getCharStart
  split <;> simp [rxStart_eq]

theorem sendStringStart_history (s : State) : (sendStringStart s).history = s.history := by
  unfold sendStringStart
  split
  · split <;> simp [txStart_eq]
  · exact goto_history _ _ _

theorem maskStart_history (s : State) : (maskStart s).history = s.history := by
  unfold maskStart
  split <;> exact goto_history _ _ _

/-- A main operation whose acceptance touches no hardware adds what its run's events add. -/
theorem mainEvent_addsAtMostOneEvent {i : Instr} {start : State → State} {event : State → Option State} {s t : State}
    (hstart : ∀ u, (start u).history = u.history) (hevent : event s = some t → addsAtMostOneEvent .main s t)
    (h : mainEvent i start event s = .next t) : addsAtMostOneEvent .main s t := by
  obtain ⟨rfl, -⟩ | ⟨-, -, rfl⟩ | ⟨-, -, -, he⟩ := mainEvent_next h
  · exact .inl rfl
  · exact .inl ((hstart _).trans (accept_history i s))
  · exact hevent he

/-- 00_scope R11: every operation adds at most one transaction or time sample, of its own context. -/
theorem exec_addsAtMostOneEvent {i : Instr} {s t : State} (h : exec i s = .next t) :
    addsAtMostOneEvent i.ctx s t := by
  cases i with
  | init => exact mainEvent_addsAtMostOneEvent initStart_history initEvent_addsAtMostOneEvent h
  | sendChar => exact mainEvent_addsAtMostOneEvent sendCharStart_history sendCharEvent_addsAtMostOneEvent h
  | getChar => exact mainEvent_addsAtMostOneEvent getCharStart_history getCharEvent_addsAtMostOneEvent h
  | sendString => exact mainEvent_addsAtMostOneEvent sendStringStart_history sendStringEvent_addsAtMostOneEvent h
  | enableInterrupts => exact mainEvent_addsAtMostOneEvent maskStart_history maskEvent_addsAtMostOneEvent h
  | disableInterrupts => exact mainEvent_addsAtMostOneEvent maskStart_history maskEvent_addsAtMostOneEvent h
  | clearErrors =>
    exact mainEvent_addsAtMostOneEvent (fun u => goto_history _ _ u) clearErrorsEvent_addsAtMostOneEvent h
  | getErrorStatus =>
    exact mainEvent_addsAtMostOneEvent (fun u => goto_history _ _ u) getErrorStatusEvent_addsAtMostOneEvent h
  | irqHandler =>
    obtain ⟨-, rfl⟩ | ⟨-, he⟩ := execIrqHandler_next h
    · exact .inl (enterHandler_history s)
    · exact handlerEvent_addsAtMostOneEvent he

/-- Settles O39: what `exec` adds to the history, with the context of the event read off its constructor. -/
theorem oneTransactionPerEvent : Obligations.OneTransactionPerEvent := by
  intro i s t h
  obtain hs | ⟨e, hc, he⟩ := exec_addsAtMostOneEvent h
  · exact .inl hs
  · refine .inr ⟨e, he, ?_, ?_, ?_⟩
    · rintro c a v rfl; exact hc
    · rintro c a v rfl; exact hc
    · rintro c v rfl; exact hc

/-! ### The configuration at reset -/

/-- The bound on the opaque `UART_BASE / 4` keeps four times it inside 32 bits. -/
theorem platformCfg_uartBase_toNat : platformCfg.uartBase.toNat = 4 * Config.uartBaseQuarter.val := by
  have hq := Config.uartBaseQuarter.isLt
  show (BitVec.ofNat 32 (4 * Config.uartBaseQuarter.val)).toNat = _
  rw [BitVec.toNat_ofNat, Nat.mod_eq_of_lt (by omega)]

/-- 00_scope R6: the register block is aligned and ends inside the address space. -/
theorem platformCfg_uartBase_legal :
    platformCfg.uartBase.toNat % 4 = 0 ∧ platformCfg.uartBase.toNat + 0x47 < 2 ^ 32 := by
  have hq := Config.uartBaseQuarter.isLt
  rw [platformCfg_uartBase_toNat]
  omega

/-- 00_scope R6: `CLOCK_HZ` is a positive 32-bit number. -/
theorem platformCfg_clockHz_legal : 1 ≤ platformCfg.clockHz ∧ platformCfg.clockHz < 2 ^ 32 := by
  have hc := Config.clockHzLessOne.isLt
  show 1 ≤ Config.clockHzLessOne.val + 1 ∧ Config.clockHzLessOne.val + 1 < 2 ^ 32
  omega

/-- Settles O11: the OPEN parameters are legal by their bounds, the masks by evaluation. -/
theorem resetConfigurationIsLegal : Obligations.ResetConfigurationIsLegal := by
  obtain ⟨halign, hend⟩ := platformCfg_uartBase_legal
  obtain ⟨hpos, hclock⟩ := platformCfg_clockHz_legal
  show platformCfg.wellFormed = true
  simp only [Cfg.wellFormed, Bool.and_eq_true, beq_iff_eq, decide_eq_true_eq, and_assoc]
  exact ⟨halign, hend, hpos, hclock, by decide⟩

end Sys2Proof.Machine
end

section
/-! SUPPORT. What one event of an operation can be, read backwards from the state after it: the rows of 40_common R126 as
inversion lemmas, one per sequence, with the guards under which each row is taken. -/

namespace Sys2Proof.Machine

/-! ### The two shared sequences -/

/-- An event of `SendCharSeq` on either context. -/
theorem sendEvent_next {c : Ctx} {s t : State} (h : sendEvent c s = some t) :
    ((s.seq c).phase = .tStart ∧ t = goto c .tRFlag (startClock c s))
      ∨ ((s.seq c).phase = .tRFlag ∧ t = goto c
          (if anySet (busAnswer c .flag s) s.cfg.flagTxff then (if budget c s = 0#32 then .tRFlag else .tNow) else .tRRsr)
          (readReg c .flag s))
      ∨ ((s.seq c).phase = .tNow ∧ deadlinePassed (clockAnswer c s) (s.seq c).tStart (budget c s) = false
          ∧ t = goto c .tRFlag (sampleNow c s))
      ∨ ((s.seq c).phase = .tNow ∧ deadlinePassed (clockAnswer c s) (s.seq c).tStart (budget c s) = true
          ∧ txEnd c .timeout (sampleNow c s) = some t)
      ∨ ((s.seq c).phase = .tRRsr ∧ anySet (busAnswer c .rsrEcr s) s.cfg.rsrAny = false
          ∧ t = goto c .tWData (readReg c .rsrEcr s))
      ∨ ((s.seq c).phase = .tRRsr ∧ anySet (busAnswer c .rsrEcr s) s.cfg.rsrAny = true
          ∧ txEnd c .hardwareError (readReg c .rsrEcr s) = some t)
      ∨ ((s.seq c).phase = .tWData ∧ txEnd c .ok (writeReg c .data ((txChar c s).setWidth 32) s) = some t) := by
  have hv : ((readReg c .rsrEcr s).seq c).tmp = busAnswer c .rsrEcr s := by cases c <;> rfl
  unfold sendEvent at h
  simp only [pollFlag_eq, hv] at h
  split at h
  · cases h; simp_all [pollStart]
  · cases h; simp_all
  · split at h
    · simp_all
    · cases h; simp_all
  · split at h
    · simp_all
    · cases h; simp_all
  · simp_all
  · cases h

/-- An event of `GetCharSeq` on either context. -/
theorem getEvent_next {c : Ctx} {s t : State} (h : getEvent c s = some t) :
    ((s.seq c).phase = .gStart ∧ t = goto c .gRFlag (startClock c s))
      ∨ ((s.seq c).phase = .gRFlag ∧ t = goto c
          (if anySet (busAnswer c .flag s) s.cfg.flagRxfe then (if budget c s = 0#32 then .gRFlag else .gNow) else .gRRsr)
          (readReg c .flag s))
      ∨ ((s.seq c).phase = .gNow ∧ deadlinePassed (clockAnswer c s) (s.seq c).tStart (budget c s) = false
          ∧ t = goto c .gRFlag (sampleNow c s))
      ∨ ((s.seq c).phase = .gNow ∧ deadlinePassed (clockAnswer c s) (s.seq c).tStart (budget c s) = true
          ∧ rxEnd c .timeout (sampleNow c s) = some t)
      ∨ ((s.seq c).phase = .gRRsr ∧ decodeRxStatus s.cfg (busAnswer c .rsrEcr s) = .ok
          ∧ t = goto c .gRData (readReg c .rsrEcr s))
      ∨ ((s.seq c).phase = .gRRsr ∧ decodeRxStatus s.cfg (busAnswer c .rsrEcr s) ≠ .ok
          ∧ rxEnd c (decodeRxStatus s.cfg (busAnswer c .rsrEcr s)) (readReg c .rsrEcr s) = some t)
      ∨ ((s.seq c).phase = .gRData ∧ rxEnd c .ok (readReg c .data s) = some t) := by
  have hv : ((readReg c .rsrEcr s).seq c).tmp = busAnswer c .rsrEcr s := by cases c <;> rfl
  unfold getEvent at h
  simp only [pollFlag_eq, hv] at h
  split at h
  · cases h; simp_all [pollStart]
  · cases h; simp_all
  · split at h
    · simp_all
    · cases h; simp_all
  · split at h
    · cases h; simp_all
    · simp_all
  · simp_all
  · cases h

/-! ### The operations of the main context -/

/-- From `s` to `t` the operation of the main context completes, with the code its micro-state holds (40_common R120). -/
def completesMain (s t : State) : Prop := ∃ code, s.m.phase = .done code ∧ t = complete code s

/-- An event of `SEND_CHAR` or `SEND_STRING`. -/
theorem sendCharEvent_next {s t : State} (h : sendCharEvent s = some t) :
    completesMain s t ∨ sendEvent .main s = some t := by
  unfold sendCharEvent at h
  split at h
  · cases h; exact .inl ⟨_, ‹_›, rfl⟩
  · exact .inr h

/-- An event of `GET_CHAR`. -/
theorem getCharEvent_next {s t : State} (h : getCharEvent s = some t) :
    completesMain s t ∨ getEvent .main s = some t := by
  unfold getCharEvent at h
  split at h
  · cases h; exact .inl ⟨_, ‹_›, rfl⟩
  · exact .inr h

/-- An event of `ENABLE_INTERRUPTS` or `DISABLE_INTERRUPTS`. -/
theorem maskEvent_next {value : Cfg → Word → Word} {s t : State} (h : maskEvent value s = some t) :
    completesMain s t
      ∨ (s.m.phase = .mRImsc ∧ t = goto .main .mWImsc (readReg .main .imsc s))
      ∨ (s.m.phase = .mWImsc ∧ t = goto .main (.done .ok) (writeReg .main .imsc (value s.cfg s.m.tmp) s)) := by
  unfold maskEvent at h
  split at h <;> cases h
  · exact .inr (.inl ⟨‹_›, rfl⟩)
  · exact .inr (.inr ⟨‹_›, rfl⟩)
  · exact .inl ⟨_, ‹_›, rfl⟩

/-- An event of `CLEAR_ERRORS`. -/
theorem clearErrorsEvent_next {s t : State} (h : clearErrorsEvent s = some t) :
    completesMain s t
      ∨ (s.m.phase = .eWEcr ∧ t = goto .main (.done .ok) (writeReg .main .rsrEcr Word.allOnes s)) := by
  unfold clearErrorsEvent at h
  split at h <;> cases h
  · exact .inr ⟨‹_›, rfl⟩
  · exact .inl ⟨_, ‹_›, rfl⟩

/-- An event of `GET_ERROR_STATUS`. -/
theorem getErrorStatusEvent_next {s t : State} (h : getErrorStatusEvent s = some t) :
    completesMain s t
      ∨ (s.m.phase = .qRRsr
          ∧ t = goto .main (.done (decodeRxStatus s.cfg (busAnswer .main .rsrEcr s))) (readReg .main .rsrEcr s)) := by
  unfold getErrorStatusEvent at h
  split at h <;> cases h
  · exact .inr ⟨‹_›, rfl⟩
  · exact .inl ⟨_, ‹_›, rfl⟩

/-- An event of `INIT`: the steps 2 to 7 of 41_init R140, or the completion. -/
theorem initEvent_next {s t : State} (h : initEvent s = some t) :
    completesMain s t
      ∨ (s.m.phase = .iWCtrl0
          ∧ t = goto .main .iWIcr { writeReg .main .ctrl 0#32 s with devState := .configuring })
      ∨ (s.m.phase = .iWIcr ∧ divisor s.cfg s.latch.arg = 0
          ∧ t = goto .main (.done .invalidParam) { writeReg .main .icr Word.allOnes s with devState := .disabled })
      ∨ (s.m.phase = .iWIcr ∧ divisor s.cfg s.latch.arg ≠ 0
          ∧ t = goto .main .iWIbrd
            { writeReg .main .icr Word.allOnes s with opCfg := some (opCfgOf s.cfg s.latch.arg) })
      ∨ (s.m.phase = .iWIbrd
          ∧ t = goto .main .iWFbrd (writeReg .main .ibrd (ibrdValue s.cfg s.latch.arg) s))
      ∨ (s.m.phase = .iWFbrd
          ∧ t = goto .main .iWLcr (writeReg .main .fbrd (fbrdValue s.cfg s.latch.arg) s))
      ∨ (s.m.phase = .iWLcr ∧ t = goto .main .iWCtrlEn (writeReg .main .lcr s.cfg.lcr8n1 s))
      ∨ (s.m.phase = .iWCtrlEn ∧ t = goto .main .iRCtrl (writeReg .main .ctrl (ctrlEnabling s.cfg) s))
      ∨ (s.m.phase = .iRCtrl ∧ anySet (busAnswer .main .ctrl s) s.cfg.ctrlEn = true
          ∧ t = goto .main (.done .ok) { readReg .main .ctrl s with devState := .enabled })
      ∨ (s.m.phase = .iRCtrl ∧ anySet (busAnswer .main .ctrl s) s.cfg.ctrlEn = false
          ∧ t = goto .main (.done .initFailed) { readReg .main .ctrl s with devState := .disabled }) := by
  unfold initEvent at h
  split at h
  · cases h; simp_all
  · simp only at h
    split at h <;> cases h <;> simp_all
  · cases h; simp_all
  · cases h; simp_all
  · cases h; simp_all
  · cases h; simp_all
  · simp only at h
    split at h <;> cases h <;> simp_all
  · cases h; exact .inl ⟨_, ‹_›, rfl⟩
  · cases h

/-! ### The handler -/

/-- An event of a handler run (47_interrupt_handler R210). -/
theorem handlerEvent_next {s t : State} (h : handlerEvent s = some t) :
    (s.q.phase = .hRMis ∧ anySet (busAnswer .irq .mis s) s.cfg.intRx = true
        ∧ t = rxStart .irq (setKont .irq .handler (readReg .irq .mis s)))
      ∨ (s.q.phase = .hRMis ∧ anySet (busAnswer .irq .mis s) s.cfg.intRx = false
        ∧ t = goto .irq .hDone (readReg .irq .mis s))
      ∨ (s.q.phase = .hWIcr ∧ t = goto .irq .hDone (writeReg .irq .icr s.cfg.intRx s))
      ∨ (s.q.phase = .hDone ∧ t = leaveHandler s)
      ∨ getEvent .irq s = some t ∨ sendEvent .irq s = some t := by
  unfold handlerEvent at h
  split at h
  · simp only at h
    split at h <;> cases h <;> simp_all
  · cases h; simp_all
  · cases h; simp_all
  · split at h
    · cases h; simp_all
    · simp_all

end Sys2Proof.Machine
end

section
/-! SUPPORT. What an event leaves alone, said once per operation, and the micro-states of the two shared sequences, said
once for both contexts (40_common R120, R126). -/

namespace Sys2Proof.Machine

/-! ### Frames of the acceptances and of the runs -/

/-- What the start of an accepted operation leaves alone: besides what a sequence keeps, the irq context, the busy bit,
the operation and the string latches. -/
def startKeeps (s t : State) : Prop :=
  seqKeeps s t ∧ t.q = s.q ∧ t.m.busy = s.m.busy ∧ t.latch.op = s.latch.op ∧ t.latch.p = s.latch.p
    ∧ t.latch.str = s.latch.str ∧ t.latch.idx = s.latch.idx

theorem goto_startKeeps (p : Phase) (s : State) : startKeeps s (goto .main p s) := by simp [startKeeps, seqKeeps]

theorem initStart_keeps (s : State) : startKeeps s (initStart s) := by
  unfold initStart
  split <;> exact goto_startKeeps _ s

theorem sendCharStart_keeps (s : State) : startKeeps s (sendCharStart s) := by
  simp [sendCharStart, txStart_eq, startKeeps, seqKeeps]

theorem getCharStart_keeps (s : State) : startKeeps s (getCharStart s) := by
  unfold getCharStart
  split
  · simp [rxStart_eq, startKeeps, seqKeeps]
  · exact goto_startKeeps _ s

theorem sendStringStart_keeps (s : State) : startKeeps s (sendStringStart s) := by
  unfold sendStringStart
  split
  · split
    · exact goto_startKeeps _ s
    · simp [txStart_eq, startKeeps, seqKeeps]
  · exact goto_startKeeps _ s

theorem maskStart_keeps (s : State) : startKeeps s (maskStart s) := by
  unfold maskStart
  split <;> exact goto_startKeeps _ s

/-- What an event of a main operation other than `INIT` leaves alone, where it is not the completion; and `m.idx` does
not leave the string. -/
def runKeeps (s t : State) : Prop :=
  seqKeeps s t ∧ mainSeqKeeps s t ∧ (s.latch.idx ≤ s.latch.str.length → t.latch.idx ≤ t.latch.str.length)

theorem stringNext_index {code : ErrorStatus} {s t : State} (h : stringNext code s = some t)
    (hx : s.latch.idx ≤ s.latch.str.length) : t.latch.idx ≤ t.latch.str.length := by
  unfold stringNext at h
  simp only [txStart_eq] at h
  split at h
  · split at h
    · cases h; simp_all
    · split at h
      · rename_i hb
        cases h
        exact Nat.le_of_lt (List.getElem?_eq_some_iff.1 hb).1
      · cases h
  · cases h; exact hx

theorem txEnd_main_index {code : ErrorStatus} {s t : State} (h : txEnd .main code s = some t)
    (hx : s.latch.idx ≤ s.latch.str.length) : t.latch.idx ≤ t.latch.str.length := by
  simp only [txEnd] at h
  split at h
  · cases h; exact hx
  · exact stringNext_index h hx
  all_goals cases h

theorem sendEvent_main_index {s t : State} (h : sendEvent .main s = some t)
    (hx : s.latch.idx ≤ s.latch.str.length) : t.latch.idx ≤ t.latch.str.length := by
  obtain ⟨-, rfl⟩ | ⟨-, rfl⟩ | ⟨-, -, rfl⟩ | ⟨-, -, he⟩ | ⟨-, -, rfl⟩ | ⟨-, -, he⟩ | ⟨-, he⟩ := sendEvent_next h
  · simpa using hx
  · simpa using hx
  · simpa using hx
  · exact txEnd_main_index he hx
  · simpa using hx
  · exact txEnd_main_index he (by simpa using hx)
  · exact txEnd_main_index he hx

theorem sendCharEvent_keeps {s t : State} (h : sendCharEvent s = some t) : completesMain s t ∨ runKeeps s t := by
  obtain hc | he := sendCharEvent_next h
  · exact .inl hc
  · obtain ⟨hs, hm, -, -⟩ := sendEvent_main_keeps he
    exact .inr ⟨hs, hm, sendEvent_main_index he⟩

theorem getCharEvent_keeps {s t : State} (h : getCharEvent s = some t) : completesMain s t ∨ runKeeps s t := by
  obtain hc | he := getCharEvent_next h
  · exact .inl hc
  · obtain ⟨hs, hm, hl, -⟩ := getEvent_main_keeps he
    exact .inr ⟨hs, hm, by rw [hl]; exact id⟩

theorem maskEvent_keeps {value : Cfg → Word → Word} {s t : State} (h : maskEvent value s = some t) :
    completesMain s t ∨ runKeeps s t := by
  obtain hc | ⟨-, rfl⟩ | ⟨-, rfl⟩ := maskEvent_next h
  · exact .inl hc
  · exact .inr (by simp [runKeeps, seqKeeps, mainSeqKeeps])
  · exact .inr (by simp [runKeeps, seqKeeps, mainSeqKeeps])

theorem clearErrorsEvent_keeps {s t : State} (h : clearErrorsEvent s = some t) : completesMain s t ∨ runKeeps s t := by
  obtain hc | ⟨-, rfl⟩ := clearErrorsEvent_next h
  · exact .inl hc
  · exact .inr (by simp [runKeeps, seqKeeps, mainSeqKeeps])

theorem getErrorStatusEvent_keeps {s t : State} (h : getErrorStatusEvent s = some t) :
    completesMain s t ∨ runKeeps s t := by
  obtain hc | ⟨-, rfl⟩ := getErrorStatusEvent_next h
  · exact .inl hc
  · exact .inr (by simp [runKeeps, seqKeeps, mainSeqKeeps])

/-- What an event of `INIT` leaves alone, where it is not the completion: all but the two ghosts, the micro-state, `m.tmp`
and what the bus transaction changes. -/
def initKeeps (s t : State) : Prop :=
  t.cfg = s.cfg ∧ t.q = s.q ∧ t.qChar = s.qChar ∧ t.latch = s.latch ∧ t.m.busy = s.m.busy ∧ t.m.kont = s.m.kont
    ∧ t.outChar = s.outChar ∧ t.result = s.result ∧ t.results = s.results ∧ t.clockAnswers = s.clockAnswers
    ∧ t.turns = s.turns ∧ t.turnCount = s.turnCount ∧ t.port = s.port

theorem initEvent_keeps {s t : State} (h : initEvent s = some t) : completesMain s t ∨ initKeeps s t := by
  obtain hc | ⟨-, rfl⟩ | ⟨-, -, rfl⟩ | ⟨-, -, rfl⟩ | ⟨-, rfl⟩ | ⟨-, rfl⟩ | ⟨-, rfl⟩ | ⟨-, rfl⟩ | ⟨-, -, rfl⟩
    | ⟨-, -, rfl⟩ := initEvent_next h
  · exact .inl hc
  all_goals exact .inr (by simp [initKeeps])

/-! ### The micro-states of a running sequence, on either context -/

/-- A context is in the middle of `SendCharSeq`, with the continuation of its caller (40_common R126). -/
def sending : Ctx → State → Prop
  | .main, s => mainSending s
  | .irq, s => s.q.kont = some .handler

/-- A context is in the middle of `GetCharSeq`. -/
def receiving : Ctx → State → Prop
  | .main, s => mainReceiving s
  | .irq, s => s.q.kont = some .handler

/-- The micro-state `p` is one of a busy context, with what R126 says of the registers in it. -/
def fitsAt : Ctx → Phase → State → Prop
  | .main, p, s => mainFitsAt p s
  | .irq, p, s => irqFitsAt p s

/-- A busy context is in a micro-state of its operation. -/
def phaseFits (c : Ctx) (s : State) : Prop := fitsAt c (s.seq c).phase s

@[simp] theorem fitsAt_tStart (c : Ctx) (s : State) : fitsAt c .tStart s = (sending c s ∧ budget c s ≠ 0#32) := by cases c <;> rfl
@[simp] theorem fitsAt_tRFlag (c : Ctx) (s : State) : fitsAt c .tRFlag s = sending c s := by cases c <;> rfl
@[simp] theorem fitsAt_tNow (c : Ctx) (s : State) : fitsAt c .tNow s = (sending c s ∧ budget c s ≠ 0#32) := by cases c <;> rfl
@[simp] theorem fitsAt_tRRsr (c : Ctx) (s : State) : fitsAt c .tRRsr s = sending c s := by cases c <;> rfl
@[simp] theorem fitsAt_tWData (c : Ctx) (s : State) : fitsAt c .tWData s = sending c s := by cases c <;> rfl
@[simp] theorem fitsAt_gStart (c : Ctx) (s : State) : fitsAt c .gStart s = (receiving c s ∧ budget c s ≠ 0#32) := by cases c <;> rfl
@[simp] theorem fitsAt_gRFlag (c : Ctx) (s : State) : fitsAt c .gRFlag s = receiving c s := by cases c <;> rfl
@[simp] theorem fitsAt_gNow (c : Ctx) (s : State) : fitsAt c .gNow s = (receiving c s ∧ budget c s ≠ 0#32) := by cases c <;> rfl
@[simp] theorem fitsAt_gRRsr (c : Ctx) (s : State) : fitsAt c .gRRsr s = receiving c s := by cases c <;> rfl
@[simp] theorem fitsAt_gRData (c : Ctx) (s : State) : fitsAt c .gRData s = receiving c s := by cases c <;> rfl

/-- The irq context's micro-state is judged by its continuation and the configuration. -/
theorem irqFitsAt_congr {p : Phase} {s t : State} (hk : t.q.kont = s.q.kont) (hc : t.cfg = s.cfg) :
    irqFitsAt p t = irqFitsAt p s := by
  unfold irqFitsAt
  rw [hk, hc]

/-- A move judges the micro-state it goes to by the registers it leaves as they are. -/
@[simp] theorem phaseFits_goto (c : Ctx) (p : Phase) (s : State) : phaseFits c (goto c p s) = fitsAt c p s := by
  cases c with
  | main => exact propext (mainFitsAt_congr rfl rfl rfl rfl rfl)
  | irq => exact irqFitsAt_congr rfl rfl

/-! A bus transaction or a time sample changes neither what is judged nor the budget. -/

@[simp] theorem budget_readReg (c : Ctx) (r : Reg) (s : State) : budget c (readReg c r s) = budget c s := by cases c <;> rfl
@[simp] theorem budget_sampleNow (c : Ctx) (s : State) : budget c (sampleNow c s) = budget c s := by cases c <;> rfl
@[simp] theorem sending_readReg (c : Ctx) (r : Reg) (s : State) : sending c (readReg c r s) = sending c s := by cases c <;> rfl
@[simp] theorem sending_writeReg (c : Ctx) (r : Reg) (v : Word) (s : State) : sending c (writeReg c r v s) = sending c s := by cases c <;> rfl
@[simp] theorem sending_sampleNow (c : Ctx) (s : State) : sending c (sampleNow c s) = sending c s := by cases c <;> rfl
@[simp] theorem sending_startClock (c : Ctx) (s : State) : sending c (startClock c s) = sending c s := by cases c <;> rfl
@[simp] theorem receiving_readReg (c : Ctx) (r : Reg) (s : State) : receiving c (readReg c r s) = receiving c s := by cases c <;> rfl
@[simp] theorem receiving_sampleNow (c : Ctx) (s : State) : receiving c (sampleNow c s) = receiving c s := by cases c <;> rfl
@[simp] theorem receiving_startClock (c : Ctx) (s : State) : receiving c (startClock c s) = receiving c s := by cases c <;> rfl

theorem txStart_fits {c : Ctx} {s : State} (hs : sending c s) : phaseFits c (txStart c s) := by
  rw [txStart_eq]
  split <;> simp_all

theorem rxStart_fits {c : Ctx} {s : State} (hs : receiving c s) : phaseFits c (rxStart c s) := by
  rw [rxStart_eq]
  split <;> simp_all

/-- `SEND_CHAR` and `SEND_STRING` may return what the end of a character reports (60 R231). -/
theorem mayReturn_of_txEnd {code : ErrorStatus} (hc : code ∈ [ErrorStatus.ok, .timeout, .hardwareError]) :
    mayReturn 2#4 code = true ∧ mayReturn 4#4 code = true := by
  cases code <;> simp_all [mayReturn]

/-- `GET_CHAR` may return what the end of a receive reports (60 R231). -/
theorem mayReturn_of_rxEnd {code : ErrorStatus}
    (hc : code ∈ [ErrorStatus.ok, .timeout, .overrun, .framing, .parity, .noise]) : mayReturn 3#4 code = true := by
  cases code <;> simp_all [mayReturn]

/-- The end of a character ends the operation, begins the next character, or lets the handler clear its interrupt. -/
theorem txEnd_fits {c : Ctx} {code : ErrorStatus} {s t : State} (hs : sending c s)
    (hc : code ∈ [ErrorStatus.ok, .timeout, .hardwareError]) (h : txEnd c code s = some t) : phaseFits c t := by
  cases c with
  | irq =>
    obtain ⟨-, rfl⟩ := txEnd_irq h
    simp [fitsAt, irqFitsAt]
  | main =>
    obtain ⟨hchar, hstring⟩ := mayReturn_of_txEnd hc
    obtain ⟨ho, hk⟩ | ⟨ho, hk, -⟩ := hs
    · simp only [txEnd, hk, Option.some.injEq] at h
      subst h
      simp [fitsAt, mainFitsAt, ho, hchar]
    · simp only [txEnd, hk, stringNext] at h
      split at h
      · split at h
        · cases h
          simp [fitsAt, mainFitsAt, mayReturn, ho]
        · split at h
          · cases h
            exact txStart_fits (.inr ⟨ho, hk, ‹_›⟩)
          · cases h
      · cases h
        simp [fitsAt, mainFitsAt, ho, hstring]

/-- The end of a receive ends `GET_CHAR`, with `OUT_CHAR` written on Ok, or lets the handler echo or clear its
interrupt. -/
theorem rxEnd_fits {c : Ctx} {code : ErrorStatus} {s t : State} (hs : receiving c s)
    (hc : code ∈ [ErrorStatus.ok, .timeout, .overrun, .framing, .parity, .noise]) (h : rxEnd c code s = some t) :
    phaseFits c t := by
  cases c with
  | irq =>
    obtain ⟨hk, rfl⟩ := rxEnd_irq h
    split
    · exact txStart_fits hk
    · simp [fitsAt, irqFitsAt]
  | main =>
    obtain ⟨ho, -, -⟩ := hs
    have hr := mayReturn_of_rxEnd hc
    obtain ⟨-, rfl⟩ := rxEnd_main h
    split <;> simp_all [fitsAt, mainFitsAt]

/-- An event of `SendCharSeq` ends in a micro-state of the operation, whichever context runs it. -/
theorem sendEvent_fits {c : Ctx} {s t : State} (hf : phaseFits c s) (h : sendEvent c s = some t) : phaseFits c t := by
  unfold phaseFits at hf
  obtain ⟨hp, rfl⟩ | ⟨hp, rfl⟩ | ⟨hp, -, rfl⟩ | ⟨hp, -, he⟩ | ⟨hp, -, rfl⟩ | ⟨hp, -, he⟩ | ⟨hp, he⟩ := sendEvent_next h
    <;> rw [hp] at hf
  · simp_all
  · split
    · split <;> simp_all
    · simp_all
  · simp_all
  · exact txEnd_fits (by simp_all) (by simp) he
  · simp_all
  · exact txEnd_fits (by simp_all) (by simp) he
  · exact txEnd_fits (by simp_all) (by simp) he

/-- An event of `GetCharSeq` likewise. -/
theorem getEvent_fits {c : Ctx} {s t : State} (hf : phaseFits c s) (h : getEvent c s = some t) : phaseFits c t := by
  unfold phaseFits at hf
  obtain ⟨hp, rfl⟩ | ⟨hp, rfl⟩ | ⟨hp, -, rfl⟩ | ⟨hp, -, he⟩ | ⟨hp, -, rfl⟩ | ⟨hp, -, he⟩ | ⟨hp, he⟩ := getEvent_next h
    <;> rw [hp] at hf
  · simp_all
  · split
    · split <;> simp_all
    · simp_all
  · simp_all
  · exact rxEnd_fits (by simp_all) (by simp) he
  · simp_all
  · have hm := decodeRxStatus_mem s.cfg (busAnswer c .rsrEcr s)
    exact rxEnd_fits (by simp_all) (by grind) he
  · exact rxEnd_fits (by simp_all) (by simp) he

end Sys2Proof.Machine
end

section
/-! SUPPORT. 10_state section 2, 40_common section 6: every step keeps the invariant of the sequencers. Each event ends in
a micro-state of its operation; with the frames that is the invariant. -/

namespace Sys2Proof.Machine

/-! ### The micro-states of the main operations and of the handler -/

theorem sendCharStart_fits {s : State} (ho : s.latch.op = 2#4) : mainPhaseFits (sendCharStart s) :=
  txStart_fits (c := .main) (.inl ⟨ho, rfl⟩)

theorem getCharStart_fits {s : State} (ho : s.latch.op = 3#4) : mainPhaseFits (getCharStart s) := by
  unfold getCharStart
  split
  · exact rxStart_fits (c := .main) ⟨ho, ‹_›, rfl⟩
  · simp [mainPhaseFits, mainFitsAt, mayReturn, ho]

theorem sendStringStart_fits {s : State} (ho : s.latch.op = 4#4) (hx : s.latch.idx = 0) :
    mainPhaseFits (sendStringStart s) := by
  unfold sendStringStart
  split
  · split
    · simp [mainPhaseFits, mainFitsAt, mayReturn, ho]
    · exact txStart_fits (c := .main) (.inr ⟨ho, rfl, by simp_all⟩)
  · simp [mainPhaseFits, mainFitsAt, mayReturn, ho]

theorem maskStart_fits {s : State} (ho : s.latch.op = 5#4 ∨ s.latch.op = 6#4) : mainPhaseFits (maskStart s) := by
  unfold maskStart
  split <;> simp_all [mainPhaseFits, mainFitsAt]

theorem initStart_fits {s : State} (ho : s.latch.op = 1#4) : mainPhaseFits (initStart s) := by
  unfold initStart
  split <;> simp_all [mainPhaseFits, mainFitsAt, mayReturn]

theorem clearErrorsStart_fits {s : State} (ho : s.latch.op = 7#4) : mainPhaseFits (goto .main .eWEcr s) := ho

theorem getErrorStatusStart_fits {s : State} (ho : s.latch.op = 8#4) : mainPhaseFits (goto .main .qRRsr s) := ho

theorem sendCharEvent_fits {s t : State} (hf : mainPhaseFits s) (h : sendCharEvent s = some t) :
    completesMain s t ∨ mainPhaseFits t :=
  (sendCharEvent_next h).imp_right (sendEvent_fits (c := .main) hf)

theorem getCharEvent_fits {s t : State} (hf : mainPhaseFits s) (h : getCharEvent s = some t) :
    completesMain s t ∨ mainPhaseFits t :=
  (getCharEvent_next h).imp_right (getEvent_fits (c := .main) hf)

theorem maskEvent_fits {value : Cfg → Word → Word} {s t : State} (hf : mainPhaseFits s)
    (h : maskEvent value s = some t) : completesMain s t ∨ mainPhaseFits t := by
  obtain hc | ⟨hp, rfl⟩ | ⟨hp, rfl⟩ := maskEvent_next h
  · exact .inl hc
  · simp_all [mainPhaseFits, mainFitsAt]
  · obtain ho | ho : s.latch.op = 5#4 ∨ s.latch.op = 6#4 := by simpa [mainPhaseFits, mainFitsAt, hp] using hf
    all_goals simp [mainPhaseFits, mainFitsAt, mayReturn, ho]

theorem clearErrorsEvent_fits {s t : State} (hf : mainPhaseFits s) (h : clearErrorsEvent s = some t) :
    completesMain s t ∨ mainPhaseFits t := by
  obtain hc | ⟨hp, rfl⟩ := clearErrorsEvent_next h
  · exact .inl hc
  · simp_all [mainPhaseFits, mainFitsAt, mayReturn]

theorem getErrorStatusEvent_fits {s t : State} (hf : mainPhaseFits s) (h : getErrorStatusEvent s = some t) :
    completesMain s t ∨ mainPhaseFits t := by
  obtain hc | ⟨hp, rfl⟩ := getErrorStatusEvent_next h
  · exact .inl hc
  · have hm := decodeRxStatus_mem s.cfg (busAnswer .main .rsrEcr s)
    right
    simp_all [mainPhaseFits, mainFitsAt, mayReturn]

/-- A handler run returns, or goes on in a micro-state of its own. -/
theorem handlerEvent_fits {s t : State} (hf : irqPhaseFits s) (h : handlerEvent s = some t) :
    t = leaveHandler s ∨ (t.q.busy = s.q.busy ∧ irqPhaseFits t) := by
  obtain ⟨-, -, rfl⟩ | ⟨-, -, rfl⟩ | ⟨-, rfl⟩ | ⟨-, rfl⟩ | he | he := handlerEvent_next h
  · exact .inr ⟨by simp [rxStart_eq], rxStart_fits (c := .irq) rfl⟩
  · exact .inr ⟨rfl, trivial⟩
  · exact .inr ⟨rfl, trivial⟩
  · exact .inl rfl
  · obtain ⟨-, ⟨-, -, -, hb, -⟩, -⟩ := getEvent_irq_keeps he
    exact .inr ⟨hb, getEvent_fits (c := .irq) hf he⟩
  · obtain ⟨-, ⟨-, -, -, hb, -⟩, -⟩ := sendEvent_irq_keeps he
    exact .inr ⟨hb, sendEvent_fits (c := .irq) hf he⟩

/-! ### The invariant after each kind of event -/

/-- `dev_state` is Configuring in micro-states of `INIT` only. -/
theorem configuringPhase_of_op {p : Phase} {s : State} (hf : mainFitsAt p s) (ho : s.latch.op ≠ 1#4) :
    configuringPhase p = false := by
  cases p <;> simp_all [mainFitsAt, initConfigured, configuringPhase]

theorem payload_of_absent {i : Instr} (h : i.p = false) : i.payload = [] := by
  cases i <;> simp_all [Instr.p, Instr.payload]

/-- The code of an Error Status reads back as it (30_encoding R97). -/
theorem ofCode_code (e : ErrorStatus) : ErrorStatus.ofCode e.code = some e := by cases e <;> rfl

/-- Outside the micro-states of `INIT` that R141 names, `dev_state` is not Configuring. -/
theorem Inv.not_configuring {s : State} (hI : Inv s) (hp : configuringPhase s.m.phase = false) :
    s.devState ≠ .configuring := fun hd => by simp [hI.configuring.1 hd] at hp

theorem inv_of_accepted {i : Instr} {s t : State} (hI : Inv s) (hm : s.m.busy = false) (hk : startKeeps (accept i s) t)
    (hf : mainPhaseFits t) (hp : configuringPhase t.m.phase = false) : Inv t := by
  obtain ⟨⟨hc, hd, ho, hr, hrs, -⟩, hq, hb, -, hlp, hls, hlx⟩ := hk
  refine inv_of_main hI hc hq hr hrs hb hf ?_ ?_ ?_ ?_
  · rw [hlp, hls]; exact payload_of_absent
  · rw [hlx]; exact Nat.zero_le _
  · have := hI.not_configuring (by rw [(hI.mainIdle hm).1]; rfl)
    simp_all
  · rw [ho, hc]; exact hI.opCfgOfBaud

theorem inv_of_run {s t : State} (hI : Inv s) (hb : s.m.busy = true) (ho : s.latch.op ≠ 1#4) (hk : runKeeps s t)
    (hf : mainPhaseFits t) : Inv t := by
  obtain ⟨⟨hc, hd, hoc, hr, hrs, -⟩, ⟨hq, -, hbt, -, hlo, hlp, -, hls⟩, hx⟩ := hk
  refine inv_of_main hI hc hq hr hrs (hbt.trans hb) hf ?_ (hx hI.index) ?_ ?_
  · rw [hlp, hls]; exact hI.nullString
  · have hs := hI.not_configuring (configuringPhase_of_op (hI.mainBusy hb) ho)
    have ht := configuringPhase_of_op hf (hlo ▸ ho)
    simp_all
  · rw [hoc, hc]; exact hI.opCfgOfBaud

theorem inv_of_completed {s t : State} (hI : Inv s) (hb : s.m.busy = true) (hc : completesMain s t) : Inv t := by
  obtain ⟨e, hp, rfl⟩ := hc
  have hf : mainFitsAt (.done e) s := hp ▸ hI.mainBusy hb
  have hd := hI.not_configuring (by rw [hp]; rfl)
  exact {
    mainIdle := fun _ => ⟨rfl, rfl⟩
    mainBusy := nofun
    irqIdle := hI.irqIdle
    irqBusy := fun h => (irqPhaseFits_congr rfl rfl).2 (hI.irqBusy h)
    nullString := hI.nullString
    index := hI.index
    configuring := iff_of_false hd nofun
    resultIsLast := by simp [completionOf]
    resultNamed := by
      rintro v ⟨⟩
      exact ⟨e, ofCode_code e, mayReturn_ne_busy hf.1⟩
    opCfgOfBaud := hI.opCfgOfBaud }

/-- After an event of `INIT` the micro-state and the two ghosts are to be looked at. -/
theorem inv_of_initKeeps {s t : State} (hI : Inv s) (hb : s.m.busy = true) (hk : initKeeps s t) (hf : mainPhaseFits t)
    (hd : t.devState = .configuring ↔ configuringPhase t.m.phase = true)
    (ho : ∀ o, t.opCfg = some o → o = opCfgOf s.cfg o.baudRate ∧ o.divisor ≠ 0) : Inv t := by
  obtain ⟨hc, hq, -, hl, hbt, -, -, hr, hrs, -⟩ := hk
  refine inv_of_main hI hc hq hr hrs (hbt.trans hb) hf ?_ ?_ hd (hc ▸ ho)
  · rw [hl]; exact hI.nullString
  · rw [hl]; exact hI.index

/-- `INIT`'s own events: `dev_state` turns Configuring at the first write and stops being so where the operation is
done; `op_cfg` is recorded where the divisor was found non-zero. -/
theorem inv_of_initEvent {s t : State} (hI : Inv s) (hb : s.m.busy = true) (h : initEvent s = some t) : Inv t := by
  obtain hc | hk := initEvent_keeps h
  · exact inv_of_completed hI hb hc
  have invAfter := inv_of_initKeeps hI hb hk
  have hf := hI.mainBusy hb
  have hd := hI.configuring
  unfold mainPhaseFits at hf
  obtain hc | ⟨hp, rfl⟩ | ⟨hp, hD, rfl⟩ | ⟨hp, hD, rfl⟩ | ⟨hp, rfl⟩ | ⟨hp, rfl⟩ | ⟨hp, rfl⟩ | ⟨hp, rfl⟩ | ⟨hp, -, rfl⟩
    | ⟨hp, -, rfl⟩ := initEvent_next h
  · exact inv_of_completed hI hb hc
  all_goals rw [hp] at hf hd
  · exact invAfter hf (by simp [configuringPhase]) hI.opCfgOfBaud
  · obtain ⟨ho, -⟩ := hf
    exact invAfter (by simp [mainPhaseFits, mainFitsAt, mayReturn, ho]) (by simp [configuringPhase]) hI.opCfgOfBaud
  · exact invAfter ⟨hf.1, hD, rfl⟩ hd (by rintro _ ⟨⟩; exact ⟨rfl, hD⟩)
  · exact invAfter hf hd hI.opCfgOfBaud
  · exact invAfter hf hd hI.opCfgOfBaud
  · exact invAfter hf hd hI.opCfgOfBaud
  · exact invAfter hf hd hI.opCfgOfBaud
  all_goals
    obtain ⟨ho, -, -⟩ := hf
    exact invAfter (by simp [mainPhaseFits, mainFitsAt, mayReturn, ho]) (by simp [configuringPhase]) hI.opCfgOfBaud

/-! ### The invariant over an event and over a step -/

/-- One event of a main operation keeps the invariant where its three ways to answer do: no event, the acceptance, and an
event of the run. -/
theorem mainEvent_keeps_inv {i : Instr} {start : State → State} {event : State → Option State} {s t : State} (hI : Inv s)
    (hk : startKeeps (accept i s) (start (accept i s))) (hf : mainPhaseFits (start (accept i s)))
    (hp : configuringPhase (start (accept i s)).m.phase = false)
    (hrun : s.m.busy = true → s.latch.op = i.op → event s = some t → Inv t)
    (h : mainEvent i start event s = .next t) : Inv t := by
  obtain ⟨rfl, -⟩ | ⟨-, hm, rfl⟩ | ⟨-, hm, hr, he⟩ := mainEvent_next h
  · exact hI
  · exact inv_of_accepted hI hm hk hf hp
  · exact hrun hm (running_latch hr).1 he

/-- For an operation other than `INIT` the frame of its run and the micro-states it ends in say the rest. -/
theorem mainEvent_keeps_inv_of_runKeeps {i : Instr} {start : State → State} {event : State → Option State} {s t : State}
    (hI : Inv s) (ho : i.op ≠ 1#4) (hk : ∀ u, startKeeps u (start u)) (hf : mainPhaseFits (start (accept i s)))
    (hek : event s = some t → completesMain s t ∨ runKeeps s t)
    (hef : mainPhaseFits s → event s = some t → completesMain s t ∨ mainPhaseFits t)
    (h : mainEvent i start event s = .next t) : Inv t := by
  have hop : (start (accept i s)).latch.op ≠ 1#4 := by
    obtain ⟨-, -, -, hlo, -⟩ := hk (accept i s)
    rwa [hlo]
  refine mainEvent_keeps_inv hI (hk _) hf (configuringPhase_of_op hf hop) ?_ h
  intro hb hso he
  obtain hc | hrk := hek he
  · exact inv_of_completed hI hb hc
  · obtain hc | hft := hef (hI.mainBusy hb) he
    · exact inv_of_completed hI hb hc
    · exact inv_of_run hI hb (hso ▸ ho) hrk hft

theorem execInit_keeps_inv {baud : Word} {s t : State} (hI : Inv s) (h : execInit baud s = .next t) : Inv t := by
  refine mainEvent_keeps_inv hI (initStart_keeps _) (initStart_fits rfl) ?_ (fun hb _ => inv_of_initEvent hI hb) h
  unfold initStart
  split <;> rfl

theorem execIrqHandler_keeps_inv {s t : State} (hI : Inv s) (h : execIrqHandler s = .next t) : Inv t := by
  obtain ⟨-, rfl⟩ | ⟨hb, he⟩ := execIrqHandler_next h
  · exact inv_of_irq hI rfl rfl rfl rfl rfl rfl rfl rfl nofun fun _ => trivial
  · obtain ⟨⟨hc, hd, ho, hr, hrs, -⟩, hm, hl, hx, -⟩ := handlerEvent_keeps he
    have invAfter := inv_of_irq hI hc hm hl hr hrs hd ho hx
    obtain rfl | ⟨hbt, hft⟩ := handlerEvent_fits (hI.irqBusy hb) he
    · exact invAfter (fun _ => ⟨rfl, rfl⟩) nofun
    · exact invAfter (by simp [hbt, hb]) fun _ => hft

/-- 10_state R20 to R26: one event of any operation keeps the invariant. -/
theorem exec_keeps_inv {i : Instr} {s t : State} (hI : Inv s) (h : exec i s = .next t) : Inv t := by
  cases i with
  | init => exact execInit_keeps_inv hI h
  | sendChar =>
    exact mainEvent_keeps_inv_of_runKeeps hI (by simp [Instr.op]) sendCharStart_keeps (sendCharStart_fits rfl)
      sendCharEvent_keeps sendCharEvent_fits h
  | getChar =>
    exact mainEvent_keeps_inv_of_runKeeps hI (by simp [Instr.op]) getCharStart_keeps (getCharStart_fits rfl)
      getCharEvent_keeps getCharEvent_fits h
  | sendString =>
    exact mainEvent_keeps_inv_of_runKeeps hI (by simp [Instr.op]) sendStringStart_keeps (sendStringStart_fits rfl rfl)
      sendCharEvent_keeps sendCharEvent_fits h
  | enableInterrupts =>
    exact mainEvent_keeps_inv_of_runKeeps hI (by simp [Instr.op]) maskStart_keeps (maskStart_fits (.inl rfl))
      maskEvent_keeps maskEvent_fits h
  | disableInterrupts =>
    exact mainEvent_keeps_inv_of_runKeeps hI (by simp [Instr.op]) maskStart_keeps (maskStart_fits (.inr rfl))
      maskEvent_keeps maskEvent_fits h
  | clearErrors =>
    exact mainEvent_keeps_inv_of_runKeeps hI (by simp [Instr.op]) (goto_startKeeps _) (clearErrorsStart_fits rfl)
      clearErrorsEvent_keeps clearErrorsEvent_fits h
  | getErrorStatus =>
    exact mainEvent_keeps_inv_of_runKeeps hI (by simp [Instr.op]) (goto_startKeeps _) (getErrorStatusStart_fits rfl)
      getErrorStatusEvent_keeps getErrorStatusEvent_fits h
  | irqHandler => exact execIrqHandler_keeps_inv hI h

/-- Taking the turn and withdrawing an offer change nothing the invariant speaks of. -/
theorem Inv.takeTurn {s : State} (hI : Inv s) : Inv (takeTurn s) :=
  inv_of_irq hI (by simp) (by simp) (by simp) (by simp) (by simp) (by simp) (by simp) (by simp)
    (by simpa using hI.irqIdle) (fun h => (irqPhaseFits_congr (by simp) (by simp)).2 (hI.irqBusy (by simpa using h)))

theorem Inv.withdraw {s : State} (hI : Inv s) (rest : List Offer) : Inv { s with port := rest } :=
  inv_of_irq hI rfl rfl rfl rfl rfl rfl rfl rfl hI.irqIdle hI.irqBusy

/-- Settles O36: the state the step runs its event in differs from `s` in the turns and the port alone, and every event
keeps the invariant. -/
theorem stepKeepsInvariant : Obligations.StepKeepsInvariant := by
  intro s t hI h
  obtain ⟨i, u, hf, he⟩ | hf := step_next h
  · refine exec_keeps_inv ?_ he
    obtain ⟨-, -, rfl⟩ | ⟨-, -, -, rfl⟩ | ⟨-, -, -, -, rfl⟩ | ⟨-, -, -, o, rest, -, -, rfl⟩ := fetch_run hf
    · exact hI
    · exact hI.takeTurn
    · exact hI.takeTurn
    · exact hI.takeTurn.withdraw rest
  · obtain ⟨-, -, -, -, rfl⟩ := fetch_idle hf
    exact hI.takeTurn

end Sys2Proof.Machine
end

section
/-! SUPPORT. 10_state section 2: `RESULT` and the result port are written by a completion alone (R23, R100), and the read
of a register nothing has written yet is a fault (R23). -/

namespace Sys2Proof.Machine

/-! ### What an event of any operation leaves alone, where it is not a completion -/

/-- The configuration, `RESULT` and the result port are as they were. -/
def reportKeeps (s t : State) : Prop := t.cfg = s.cfg ∧ t.result = s.result ∧ t.results = s.results

theorem seqKeeps.reportKeeps {s t : State} (h : seqKeeps s t) : reportKeeps s t := by
  obtain ⟨hc, -, -, hr, hrs, -⟩ := h
  exact ⟨hc, hr, hrs⟩

theorem initKeeps.reportKeeps {s t : State} (h : initKeeps s t) : reportKeeps s t := by
  obtain ⟨hc, -, -, -, -, -, -, hr, hrs, -⟩ := h
  exact ⟨hc, hr, hrs⟩

/-- An acceptance itself writes the latches and the busy bit only. -/
theorem startKeeps.of_accept {i : Instr} {s t : State} (h : startKeeps (accept i s) t) : seqKeeps s t := by
  obtain ⟨hs, -⟩ := h
  simpa [seqKeeps] using hs

/-- One event of a main operation other than `INIT` is its completion, or leaves alone what a sequence does. -/
theorem mainEvent_seqKeeps {i : Instr} {start : State → State} {event : State → Option State} {s t : State}
    (hk : ∀ u, startKeeps u (start u)) (he : event s = some t → completesMain s t ∨ runKeeps s t)
    (h : mainEvent i start event s = .next t) : completesMain s t ∨ seqKeeps s t := by
  obtain ⟨rfl, -⟩ | ⟨-, -, rfl⟩ | ⟨-, -, -, het⟩ := mainEvent_next h
  · exact .inr (by simp [seqKeeps])
  · exact .inr (hk _).of_accept
  · exact (he het).imp_right fun hr => hr.1

theorem execInit_reportKeeps {baud : Word} {s t : State} (h : execInit baud s = .next t) :
    completesMain s t ∨ reportKeeps s t := by
  obtain ⟨rfl, -⟩ | ⟨-, -, rfl⟩ | ⟨-, -, -, he⟩ := mainEvent_next h
  · exact .inr ⟨rfl, rfl, rfl⟩
  · exact .inr (initStart_keeps _).of_accept.reportKeeps
  · exact (initEvent_keeps he).imp_right initKeeps.reportKeeps

theorem execIrqHandler_seqKeeps {s t : State} (h : execIrqHandler s = .next t) : seqKeeps s t := by
  obtain ⟨-, rfl⟩ | ⟨-, he⟩ := execIrqHandler_next h
  · simp [seqKeeps]
  · exact (handlerEvent_keeps he).1

/-- One event of any operation but `INIT`. -/
theorem exec_seqKeeps {i : Instr} {s t : State} (hi : ∀ baud, i ≠ .init baud) (h : exec i s = .next t) :
    (i.ctx = .main ∧ completesMain s t) ∨ seqKeeps s t := by
  cases i with
  | init baud => exact absurd rfl (hi baud)
  | sendChar => exact (mainEvent_seqKeeps sendCharStart_keeps sendCharEvent_keeps h).imp_left fun hc => ⟨rfl, hc⟩
  | getChar => exact (mainEvent_seqKeeps getCharStart_keeps getCharEvent_keeps h).imp_left fun hc => ⟨rfl, hc⟩
  | sendString => exact (mainEvent_seqKeeps sendStringStart_keeps sendCharEvent_keeps h).imp_left fun hc => ⟨rfl, hc⟩
  | enableInterrupts => exact (mainEvent_seqKeeps maskStart_keeps maskEvent_keeps h).imp_left fun hc => ⟨rfl, hc⟩
  | disableInterrupts => exact (mainEvent_seqKeeps maskStart_keeps maskEvent_keeps h).imp_left fun hc => ⟨rfl, hc⟩
  | clearErrors =>
    exact (mainEvent_seqKeeps (goto_startKeeps _) clearErrorsEvent_keeps h).imp_left fun hc => ⟨rfl, hc⟩
  | getErrorStatus =>
    exact (mainEvent_seqKeeps (goto_startKeeps _) getErrorStatusEvent_keeps h).imp_left fun hc => ⟨rfl, hc⟩
  | irqHandler => exact .inr (execIrqHandler_seqKeeps h)

/-- One event of any operation is a completion of the main context, or leaves `RESULT` and the result port alone. -/
theorem exec_reportKeeps {i : Instr} {s t : State} (h : exec i s = .next t) :
    (i.ctx = .main ∧ completesMain s t) ∨ reportKeeps s t := by
  by_cases hi : ∀ baud, i ≠ .init baud
  · exact (exec_seqKeeps hi h).imp_right seqKeeps.reportKeeps
  · obtain ⟨baud, rfl⟩ : ∃ baud, i = .init baud := by simpa using hi
    exact (execInit_reportKeeps h).imp_left fun hc => ⟨rfl, hc⟩

/-- No event changes the configuration (00_scope R6). -/
theorem exec_cfg {i : Instr} {s t : State} (h : exec i s = .next t) : t.cfg = s.cfg := by
  obtain ⟨-, e, -, rfl⟩ | ⟨hc, -⟩ := exec_reportKeeps h
  · rfl
  · exact hc

/-- Settles O43: an event is the completion of a main operation, or leaves both alone. -/
theorem resultWrittenByCompletionOnly : Obligations.ResultWrittenByCompletionOnly := by
  intro i s t h
  obtain ⟨hi, e, hp, rfl⟩ | ⟨-, hr, hrs⟩ := exec_reportKeeps h
  · exact .inr ⟨e, hi, hp, rfl, rfl⟩
  · exact .inl ⟨hr, hrs⟩

/-! ### The caller's reads -/

theorem readResult_of_unwritten {s : State} (h : s.result = none) : s.readResult = .error .resultUnwritten := by
  rw [State.readResult, h]

theorem readResult_of_written {s : State} {v : Code} (h : s.result = some v) : s.readResult = .ok v := by
  rw [State.readResult, h]

theorem readOutChar_of_unwritten {s : State} (h : s.outChar = none) : s.readOutChar = .error .outCharUnwritten := by
  rw [State.readOutChar, h]

theorem readOutChar_of_written {s : State} {b : Byte} (h : s.outChar = some b) : s.readOutChar = .ok b := by
  rw [State.readOutChar, h]

/-- Settles O12: the two reads, where nothing and where something was written. -/
theorem unwrittenResultReadsFault : Obligations.UnwrittenResultReadsFault := fun _ =>
  ⟨readResult_of_unwritten, fun _ => readResult_of_written, readOutChar_of_unwritten, fun _ => readOutChar_of_written⟩

end Sys2Proof.Machine
end

section
/-! SUPPORT. 10_state section 3: every transaction an event adds to the history is one the rules list (R28 to R41). -/

namespace Sys2Proof.Machine

/-! ### The listed transactions -/

/-- From `s` to `t` the history grows by one transaction the rules list, or by a time sample. -/
def addsLegalEvent (s t : State) : Prop := ∃ e : Event, legalEvent s.cfg e ∧ t.history = s.history ++ [e]

/-- From `s` to `t` the history stays as it is or grows by one listed transaction or time sample. -/
def addsOnlyLegalEvent (s t : State) : Prop := t.history = s.history ∨ addsLegalEvent s t

theorem addsLegalEvent.of_history_eq {s u t : State} (hu : addsLegalEvent s u) (ht : t.history = u.history) :
    addsLegalEvent s t := by
  obtain ⟨e, hl, he⟩ := hu
  exact ⟨e, hl, ht.trans he⟩

theorem addsLegalEvent.then_goto {c : Ctx} {p : Phase} {s u : State} (hu : addsLegalEvent s u) :
    addsLegalEvent s (goto c p u) := hu.of_history_eq (goto_history c p u)

/-- The registers a context reads. -/
def readableRegs : Ctx → List Reg
  | .main => [.data, .rsrEcr, .flag, .ctrl, .imsc]
  | .irq => [.data, .rsrEcr, .flag, .mis]

theorem readReg_addsLegalEvent {c : Ctx} {r : Reg} (hr : r ∈ readableRegs c) (s : State) :
    addsLegalEvent s (readReg c r s) := by
  refine ⟨_, ?_, readReg_history c r s⟩
  cases c <;> exact List.mem_map_of_mem hr

theorem writeReg_addsLegalEvent {c : Ctx} {r : Reg} {v : Word} {s : State}
    (hl : legalEvent s.cfg (.write c (Cfg.addr s.cfg r) v)) : addsLegalEvent s (writeReg c r v s) :=
  ⟨_, hl, writeReg_history c r v s⟩

theorem sampleNow_addsLegalEvent (c : Ctx) (s : State) : addsLegalEvent s (sampleNow c s) :=
  ⟨.now c (clockAnswer c s), trivial, sampleNow_history c s⟩

theorem startClock_addsLegalEvent (c : Ctx) (s : State) : addsLegalEvent s (startClock c s) :=
  ⟨.now c (clockAnswer c s), trivial, startClock_history c s⟩

/-- 10_state R29: a character written to `DATA` is zero-extended. -/
theorem writeData_addsLegalEvent (c : Ctx) (b : Byte) (s : State) :
    addsLegalEvent s (writeReg c .data (b.setWidth 32) s) := by
  have hb : (b.setWidth 32).toNat < 256 := by simpa using Nat.lt_of_le_of_lt (Nat.mod_le _ _) b.isLt
  apply writeReg_addsLegalEvent
  cases c <;> exact .inl ⟨rfl, hb⟩

/-- 10_state R33: the fraction written to `FBRD` is six bits. -/
theorem fbrdValue_lt (k : Cfg) (baud : Word) : (fbrdValue k baud).toNat < 64 := by
  have h : divisor k baud &&& 0x3F < 64 := Nat.and_lt_two_pow (n := 6) _ (by decide)
  rw [fbrdValue, BitVec.toNat_ofNat]
  exact Nat.lt_of_le_of_lt (Nat.mod_le _ _) h

/-! ### The events of each operation -/

theorem sendEvent_addsLegalEvent {c : Ctx} {s t : State} (h : sendEvent c s = some t) : addsLegalEvent s t := by
  have hflag := readReg_addsLegalEvent (c := c) (r := .flag) (by cases c <;> decide) s
  have hrsr := readReg_addsLegalEvent (c := c) (r := .rsrEcr) (by cases c <;> decide) s
  obtain ⟨-, rfl⟩ | ⟨-, rfl⟩ | ⟨-, -, rfl⟩ | ⟨-, -, he⟩ | ⟨-, -, rfl⟩ | ⟨-, -, he⟩ | ⟨-, he⟩ := sendEvent_next h
  · exact (startClock_addsLegalEvent c s).then_goto
  · exact hflag.then_goto
  · exact (sampleNow_addsLegalEvent c s).then_goto
  · exact (sampleNow_addsLegalEvent c s).of_history_eq (txEnd_history he)
  · exact hrsr.then_goto
  · exact hrsr.of_history_eq (txEnd_history he)
  · exact (writeData_addsLegalEvent c _ s).of_history_eq (txEnd_history he)

theorem getEvent_addsLegalEvent {c : Ctx} {s t : State} (h : getEvent c s = some t) : addsLegalEvent s t := by
  have hflag := readReg_addsLegalEvent (c := c) (r := .flag) (by cases c <;> decide) s
  have hrsr := readReg_addsLegalEvent (c := c) (r := .rsrEcr) (by cases c <;> decide) s
  have hdata := readReg_addsLegalEvent (c := c) (r := .data) (by cases c <;> decide) s
  obtain ⟨-, rfl⟩ | ⟨-, rfl⟩ | ⟨-, -, rfl⟩ | ⟨-, -, he⟩ | ⟨-, -, rfl⟩ | ⟨-, -, he⟩ | ⟨-, he⟩ := getEvent_next h
  · exact (startClock_addsLegalEvent c s).then_goto
  · exact hflag.then_goto
  · exact (sampleNow_addsLegalEvent c s).then_goto
  · exact (sampleNow_addsLegalEvent c s).of_history_eq (rxEnd_history he)
  · exact hrsr.then_goto
  · exact hrsr.of_history_eq (rxEnd_history he)
  · exact hdata.of_history_eq (rxEnd_history he)

theorem completesMain.addsOnlyLegalEvent {s t : State} (h : completesMain s t) : addsOnlyLegalEvent s t := by
  obtain ⟨e, -, rfl⟩ := h
  exact .inl (complete_history e s)

theorem sendCharEvent_addsOnlyLegalEvent {s t : State} (h : sendCharEvent s = some t) : addsOnlyLegalEvent s t := by
  obtain hc | he := sendCharEvent_next h
  · exact hc.addsOnlyLegalEvent
  · exact .inr (sendEvent_addsLegalEvent he)

theorem getCharEvent_addsOnlyLegalEvent {s t : State} (h : getCharEvent s = some t) : addsOnlyLegalEvent s t := by
  obtain hc | he := getCharEvent_next h
  · exact hc.addsOnlyLegalEvent
  · exact .inr (getEvent_addsLegalEvent he)

theorem maskEvent_addsOnlyLegalEvent {value : Cfg → Word → Word} {s t : State} (h : maskEvent value s = some t) :
    addsOnlyLegalEvent s t := by
  obtain hc | ⟨-, rfl⟩ | ⟨-, rfl⟩ := maskEvent_next h
  · exact hc.addsOnlyLegalEvent
  · exact .inr (readReg_addsLegalEvent (by decide) s).then_goto
  · exact .inr (writeReg_addsLegalEvent (by simp [legalEvent])).then_goto

theorem clearErrorsEvent_addsOnlyLegalEvent {s t : State} (h : clearErrorsEvent s = some t) :
    addsOnlyLegalEvent s t := by
  obtain hc | ⟨-, rfl⟩ := clearErrorsEvent_next h
  · exact hc.addsOnlyLegalEvent
  · exact .inr (writeReg_addsLegalEvent (by simp [legalEvent])).then_goto

theorem getErrorStatusEvent_addsOnlyLegalEvent {s t : State} (h : getErrorStatusEvent s = some t) :
    addsOnlyLegalEvent s t := by
  obtain hc | ⟨-, rfl⟩ := getErrorStatusEvent_next h
  · exact hc.addsOnlyLegalEvent
  · exact .inr (readReg_addsLegalEvent (by decide) s).then_goto

theorem initEvent_addsOnlyLegalEvent {s t : State} (h : initEvent s = some t) : addsOnlyLegalEvent s t := by
  have hctrl := readReg_addsLegalEvent (c := .main) (r := .ctrl) (by decide) s
  have hicr : addsLegalEvent s (writeReg .main .icr Word.allOnes s) :=
    writeReg_addsLegalEvent (by simp [legalEvent])
  obtain hc | ⟨-, rfl⟩ | ⟨-, -, rfl⟩ | ⟨-, -, rfl⟩ | ⟨-, rfl⟩ | ⟨-, rfl⟩ | ⟨-, rfl⟩ | ⟨-, rfl⟩ | ⟨-, -, rfl⟩
    | ⟨-, -, rfl⟩ := initEvent_next h
  · exact hc.addsOnlyLegalEvent
  · exact .inr ((writeReg_addsLegalEvent (r := .ctrl) (v := 0#32) (by simp [legalEvent])).of_history_eq rfl)
  · exact .inr (hicr.of_history_eq rfl)
  · exact .inr (hicr.of_history_eq rfl)
  · exact .inr (writeReg_addsLegalEvent (by simp [legalEvent])).then_goto
  · exact .inr (writeReg_addsLegalEvent (by simp [legalEvent, fbrdValue_lt])).then_goto
  · exact .inr (writeReg_addsLegalEvent (by simp [legalEvent])).then_goto
  · exact .inr (writeReg_addsLegalEvent (by simp [legalEvent])).then_goto
  · exact .inr (hctrl.of_history_eq rfl)
  · exact .inr (hctrl.of_history_eq rfl)

theorem handlerEvent_addsOnlyLegalEvent {s t : State} (h : handlerEvent s = some t) : addsOnlyLegalEvent s t := by
  have hmis := readReg_addsLegalEvent (c := .irq) (r := .mis) (by decide) s
  obtain ⟨-, -, rfl⟩ | ⟨-, -, rfl⟩ | ⟨-, rfl⟩ | ⟨-, rfl⟩ | he | he := handlerEvent_next h
  · exact .inr (hmis.of_history_eq (by simp [rxStart_eq]))
  · exact .inr hmis.then_goto
  · exact .inr (writeReg_addsLegalEvent (by simp [legalEvent])).then_goto
  · exact .inl (leaveHandler_history s)
  · exact .inr (getEvent_addsLegalEvent he)
  · exact .inr (sendEvent_addsLegalEvent he)

/-! ### An event, a step -/

theorem mainEvent_addsOnlyLegalEvent {i : Instr} {start : State → State} {event : State → Option State} {s t : State}
    (hstart : ∀ u, (start u).history = u.history) (hevent : event s = some t → addsOnlyLegalEvent s t)
    (h : mainEvent i start event s = .next t) : addsOnlyLegalEvent s t := by
  obtain ⟨rfl, -⟩ | ⟨-, -, rfl⟩ | ⟨-, -, -, he⟩ := mainEvent_next h
  · exact .inl rfl
  · exact .inl ((hstart _).trans (accept_history i s))
  · exact hevent he

theorem exec_addsOnlyLegalEvent {i : Instr} {s t : State} (h : exec i s = .next t) : addsOnlyLegalEvent s t := by
  cases i with
  | init => exact mainEvent_addsOnlyLegalEvent initStart_history initEvent_addsOnlyLegalEvent h
  | sendChar => exact mainEvent_addsOnlyLegalEvent sendCharStart_history sendCharEvent_addsOnlyLegalEvent h
  | getChar => exact mainEvent_addsOnlyLegalEvent getCharStart_history getCharEvent_addsOnlyLegalEvent h
  | sendString => exact mainEvent_addsOnlyLegalEvent sendStringStart_history sendCharEvent_addsOnlyLegalEvent h
  | enableInterrupts => exact mainEvent_addsOnlyLegalEvent maskStart_history maskEvent_addsOnlyLegalEvent h
  | disableInterrupts => exact mainEvent_addsOnlyLegalEvent maskStart_history maskEvent_addsOnlyLegalEvent h
  | clearErrors => exact mainEvent_addsOnlyLegalEvent (goto_history _ _) clearErrorsEvent_addsOnlyLegalEvent h
  | getErrorStatus => exact mainEvent_addsOnlyLegalEvent (goto_history _ _) getErrorStatusEvent_addsOnlyLegalEvent h
  | irqHandler =>
    obtain ⟨-, rfl⟩ | ⟨-, he⟩ := execIrqHandler_next h
    · exact .inl (enterHandler_history s)
    · exact handlerEvent_addsOnlyLegalEvent he

/-- The state a step runs its event in has the configuration and the history of the state before. -/
theorem fetch_run_keeps {i : Instr} {s u : State} (h : fetch s = .run i u) : u.cfg = s.cfg ∧ u.history = s.history := by
  obtain ⟨-, -, rfl⟩ | ⟨-, -, -, rfl⟩ | ⟨-, -, -, -, rfl⟩ | ⟨-, -, -, o, rest, -, -, rfl⟩ := fetch_run h <;> simp

/-- 00_scope R6: no step changes the configuration. -/
theorem step_cfg {s t : State} (h : step s = .next t) : t.cfg = s.cfg := by
  obtain ⟨i, u, hf, he⟩ | hf := step_next h
  · exact (exec_cfg he).trans (fetch_run_keeps hf).1
  · obtain ⟨-, -, -, -, rfl⟩ := fetch_idle hf
    exact takeTurn_cfg s

theorem step_addsOnlyLegalEvent {s t : State} (h : step s = .next t) : addsOnlyLegalEvent s t := by
  obtain ⟨i, u, hf, he⟩ | hf := step_next h
  · obtain ⟨hc, hh⟩ := fetch_run_keeps hf
    simpa [addsOnlyLegalEvent, addsLegalEvent, hc, hh] using exec_addsOnlyLegalEvent he
  · obtain ⟨-, -, -, -, rfl⟩ := fetch_idle hf
    exact .inl (takeTurn_history s)

/-- Settles O38: the configuration stays, and what a step adds to the history is listed. -/
theorem transactionsStayLegal : Obligations.TransactionsStayLegal := by
  intro s t hs h
  have hc := step_cfg h
  refine ⟨hc, ?_⟩
  rw [hc]
  obtain hh | ⟨e, hl, hh⟩ := step_addsOnlyLegalEvent h
  · rwa [hh]
  · rw [hh]
    intro e' he'
    obtain hm | hm := List.mem_append.1 he'
    · exact hs e' hm
    · rwa [List.mem_singleton.1 hm]

end Sys2Proof.Machine
end

section
/-! SUPPORT. 10_state R21, R25: `dev_state` and `op_cfg` are ghosts. Other values of them go through every event
unchanged, but for `INIT`, which overwrites them; so no event depends on them. -/

namespace Sys2Proof.Machine

/-- The same state with other values of the two ghosts. -/
def State.withGhosts (d : DevState) (o : Option OpCfg) (s : State) : State := { s with devState := d, opCfg := o }

section
variable (d : DevState) (o : Option OpCfg)

/-! ### The operations on the state go through -/

@[simp] theorem goto_withGhosts (c : Ctx) (p : Phase) (s : State) :
    goto c p (s.withGhosts d o) = (goto c p s).withGhosts d o := by cases c <;> rfl
@[simp] theorem setKont_withGhosts (c : Ctx) (k : Kont) (s : State) :
    setKont c k (s.withGhosts d o) = (setKont c k s).withGhosts d o := by cases c <;> rfl
@[simp] theorem readReg_withGhosts (c : Ctx) (r : Reg) (s : State) :
    readReg c r (s.withGhosts d o) = (readReg c r s).withGhosts d o := by cases c <;> rfl
@[simp] theorem writeReg_withGhosts (c : Ctx) (r : Reg) (v : Word) (s : State) :
    writeReg c r v (s.withGhosts d o) = (writeReg c r v s).withGhosts d o := rfl
@[simp] theorem sampleNow_withGhosts (c : Ctx) (s : State) :
    sampleNow c (s.withGhosts d o) = (sampleNow c s).withGhosts d o := rfl
@[simp] theorem startClock_withGhosts (c : Ctx) (s : State) :
    startClock c (s.withGhosts d o) = (startClock c s).withGhosts d o := by cases c <;> rfl
@[simp] theorem accept_withGhosts (i : Instr) (s : State) :
    accept i (s.withGhosts d o) = (accept i s).withGhosts d o := rfl
@[simp] theorem complete_withGhosts (e : ErrorStatus) (s : State) :
    complete e (s.withGhosts d o) = (complete e s).withGhosts d o := rfl
@[simp] theorem enterHandler_withGhosts (s : State) :
    enterHandler (s.withGhosts d o) = (enterHandler s).withGhosts d o := rfl
@[simp] theorem leaveHandler_withGhosts (s : State) :
    leaveHandler (s.withGhosts d o) = (leaveHandler s).withGhosts d o := rfl

/-! What the sequencers look at is not changed by them. -/

@[simp] theorem withGhosts_cfg (s : State) : (s.withGhosts d o).cfg = s.cfg := rfl
@[simp] theorem withGhosts_m (s : State) : (s.withGhosts d o).m = s.m := rfl
@[simp] theorem withGhosts_q (s : State) : (s.withGhosts d o).q = s.q := rfl
@[simp] theorem withGhosts_latch (s : State) : (s.withGhosts d o).latch = s.latch := rfl
@[simp] theorem withGhosts_seq (c : Ctx) (s : State) : (s.withGhosts d o).seq c = s.seq c := by cases c <;> rfl
@[simp] theorem withGhosts_running (s : State) : running (s.withGhosts d o) = running s := rfl
@[simp] theorem withGhosts_busAnswer (c : Ctx) (r : Reg) (s : State) :
    busAnswer c r (s.withGhosts d o) = busAnswer c r s := rfl
@[simp] theorem withGhosts_clockAnswer (c : Ctx) (s : State) :
    clockAnswer c (s.withGhosts d o) = clockAnswer c s := rfl
@[simp] theorem withGhosts_budget (c : Ctx) (s : State) : budget c (s.withGhosts d o) = budget c s := by cases c <;> rfl
@[simp] theorem withGhosts_txChar (c : Ctx) (s : State) : txChar c (s.withGhosts d o) = txChar c s := by cases c <;> rfl

/-! ### The acceptances -/

@[simp] theorem txStart_withGhosts (c : Ctx) (s : State) :
    txStart c (s.withGhosts d o) = (txStart c s).withGhosts d o := by simp [txStart_eq]

@[simp] theorem rxStart_withGhosts (c : Ctx) (s : State) :
    rxStart c (s.withGhosts d o) = (rxStart c s).withGhosts d o := by simp [rxStart_eq]

theorem initStart_withGhosts (s : State) : initStart (s.withGhosts d o) = (initStart s).withGhosts d o := by
  by_cases ha : s.latch.arg = 0#32 <;> simp [initStart, ha]

theorem sendCharStart_withGhosts (s : State) : sendCharStart (s.withGhosts d o) = (sendCharStart s).withGhosts d o := by
  simp [sendCharStart]

theorem getCharStart_withGhosts (s : State) : getCharStart (s.withGhosts d o) = (getCharStart s).withGhosts d o := by
  cases hp : s.latch.p <;> simp [getCharStart, hp]

theorem sendStringStart_withGhosts (s : State) :
    sendStringStart (s.withGhosts d o) = (sendStringStart s).withGhosts d o := by
  cases hp : s.latch.p with
  | false => simp [sendStringStart, hp]
  | true =>
    cases hs : s.latch.str with
    | nil => simp [sendStringStart, hp, hs]
    | cons b rest =>
      simp only [sendStringStart, withGhosts_latch, hp, hs, if_true, txStart_eq]
      rfl

theorem maskStart_withGhosts (s : State) : maskStart (s.withGhosts d o) = (maskStart s).withGhosts d o := by
  unfold maskStart
  simp only [withGhosts_cfg]
  split <;> simp

/-! ### The shared sequences -/

theorem stringNext_withGhosts (code : ErrorStatus) (s : State) :
    stringNext code (s.withGhosts d o) = (stringNext code s).map (State.withGhosts d o) := by
  by_cases hc : code = .ok
  · by_cases hl : s.latch.idx + 1 = s.latch.str.length
    · simp only [stringNext, withGhosts_latch, hc, hl, if_true]
      rfl
    · cases hb : s.latch.str[s.latch.idx + 1]? with
      | none => simp [stringNext, hc, hl, hb]
      | some b =>
        simp only [stringNext, withGhosts_latch, hc, hl, hb, if_true, if_false, txStart_eq]
        rfl
  · simp [stringNext, hc]

theorem txEnd_withGhosts (c : Ctx) (code : ErrorStatus) (s : State) :
    txEnd c code (s.withGhosts d o) = (txEnd c code s).map (State.withGhosts d o) := by
  cases c with
  | main =>
    simp only [txEnd, withGhosts_m]
    split <;> simp [stringNext_withGhosts]
  | irq =>
    simp only [txEnd, withGhosts_q]
    split <;> simp

theorem rxEnd_withGhosts (c : Ctx) (code : ErrorStatus) (s : State) :
    rxEnd c code (s.withGhosts d o) = (rxEnd c code s).map (State.withGhosts d o) := by
  cases c with
  | main =>
    simp only [rxEnd, withGhosts_m]
    split
    · split <;> rfl
    all_goals rfl
  | irq =>
    simp only [rxEnd, withGhosts_q]
    split
    · split
      · simp only [txStart_eq]
        rfl
      · rfl
    all_goals rfl

theorem sendEvent_withGhosts (c : Ctx) (s : State) :
    sendEvent c (s.withGhosts d o) = (sendEvent c s).map (State.withGhosts d o) := by
  unfold sendEvent
  simp only [withGhosts_seq]
  split
  · simp [pollStart]
  · simp [pollFlag_eq]
  · cases hd : deadlinePassed (clockAnswer c s) (s.seq c).tStart (budget c s) <;> simp [hd, txEnd_withGhosts]
  · simp only [readReg_withGhosts, withGhosts_seq, withGhosts_cfg]
    split <;> simp [txEnd_withGhosts]
  · simp [txEnd_withGhosts]
  · rfl

theorem getEvent_withGhosts (c : Ctx) (s : State) :
    getEvent c (s.withGhosts d o) = (getEvent c s).map (State.withGhosts d o) := by
  unfold getEvent
  simp only [withGhosts_seq]
  split
  · simp [pollStart]
  · simp [pollFlag_eq]
  · cases hd : deadlinePassed (clockAnswer c s) (s.seq c).tStart (budget c s) <;> simp [hd, rxEnd_withGhosts]
  · simp only [readReg_withGhosts, withGhosts_seq, withGhosts_cfg]
    split <;> simp [rxEnd_withGhosts]
  · simp [rxEnd_withGhosts]
  · rfl

/-! ### The events of each operation -/

theorem sendCharEvent_withGhosts (s : State) :
    sendCharEvent (s.withGhosts d o) = (sendCharEvent s).map (State.withGhosts d o) := by
  unfold sendCharEvent
  simp only [withGhosts_m]
  split
  · rfl
  · exact sendEvent_withGhosts d o .main s

theorem getCharEvent_withGhosts (s : State) :
    getCharEvent (s.withGhosts d o) = (getCharEvent s).map (State.withGhosts d o) := by
  unfold getCharEvent
  simp only [withGhosts_m]
  split
  · rfl
  · exact getEvent_withGhosts d o .main s

theorem maskEvent_withGhosts (value : Cfg → Word → Word) (s : State) :
    maskEvent value (s.withGhosts d o) = (maskEvent value s).map (State.withGhosts d o) := by
  unfold maskEvent
  simp only [withGhosts_m]
  split <;> rfl

theorem clearErrorsEvent_withGhosts (s : State) :
    clearErrorsEvent (s.withGhosts d o) = (clearErrorsEvent s).map (State.withGhosts d o) := by
  unfold clearErrorsEvent
  simp only [withGhosts_m]
  split <;> rfl

theorem getErrorStatusEvent_withGhosts (s : State) :
    getErrorStatusEvent (s.withGhosts d o) = (getErrorStatusEvent s).map (State.withGhosts d o) := by
  unfold getErrorStatusEvent
  simp only [withGhosts_m]
  split <;> rfl

theorem handlerEvent_withGhosts (s : State) :
    handlerEvent (s.withGhosts d o) = (handlerEvent s).map (State.withGhosts d o) := by
  unfold handlerEvent
  simp only [withGhosts_q]
  split
  · cases hv : anySet (busAnswer .irq .mis s) s.cfg.intRx <;> simp [hv]
  · simp
  · rfl
  · simp only [getEvent_withGhosts, sendEvent_withGhosts]
    cases getEvent .irq s <;> rfl

/-- `INIT` writes the ghosts and reads neither. -/
theorem initEvent_withGhosts {s t : State} (h : initEvent s = some t) :
    ∃ d' o', initEvent (s.withGhosts d o) = some (t.withGhosts d' o') := by
  obtain ⟨e, hp, rfl⟩ | ⟨hp, rfl⟩ | ⟨hp, hD, rfl⟩ | ⟨hp, hD, rfl⟩ | ⟨hp, rfl⟩ | ⟨hp, rfl⟩ | ⟨hp, rfl⟩ | ⟨hp, rfl⟩
    | ⟨hp, hv, rfl⟩ | ⟨hp, hv, rfl⟩ := initEvent_next h
  · exact ⟨d, o, by simp [initEvent, hp]⟩
  · exact ⟨.configuring, o, by simp only [initEvent, withGhosts_m, hp]; rfl⟩
  · exact ⟨.disabled, o, by simp only [initEvent, withGhosts_m, withGhosts_cfg, withGhosts_latch, hp, hD]; rfl⟩
  · exact ⟨d, some (opCfgOf s.cfg s.latch.arg), by
      simp only [initEvent, withGhosts_m, withGhosts_cfg, withGhosts_latch, hp, hD]; rfl⟩
  · exact ⟨d, o, by simp [initEvent, hp]⟩
  · exact ⟨d, o, by simp [initEvent, hp]⟩
  · exact ⟨d, o, by simp [initEvent, hp]⟩
  · exact ⟨d, o, by simp [initEvent, hp]⟩
  · exact ⟨.enabled, o, by
      simp only [initEvent, withGhosts_m, withGhosts_cfg, readReg_withGhosts, readReg_main_m, hp, hv]; rfl⟩
  · exact ⟨.disabled, o, by
      simp only [initEvent, withGhosts_m, withGhosts_cfg, readReg_withGhosts, readReg_main_m, hp, hv]; rfl⟩

/-! ### An event of any operation -/

/-- A main operation makes the same event where its start and its run do. -/
theorem mainEvent_withGhosts {i : Instr} {start : State → State} {event : State → Option State} {s t : State}
    (hstart : ∀ u, start (u.withGhosts d o) = (start u).withGhosts d o)
    (hevent : event s = some t → ∃ d' o', event (s.withGhosts d o) = some (t.withGhosts d' o'))
    (h : mainEvent i start event s = .next t) :
    ∃ d' o', mainEvent i start event (s.withGhosts d o) = .next (t.withGhosts d' o') := by
  obtain ⟨rfl, hno⟩ | ⟨hq, hm, rfl⟩ | ⟨hq, hm, hr, he⟩ := mainEvent_next h
  · refine ⟨d, o, ?_⟩
    unfold mainEvent
    obtain hq | ⟨hm, hr⟩ := hno <;> simp [*]
  · refine ⟨d, o, ?_⟩
    rw [mainEvent_accept (s := s.withGhosts d o) hq hm, accept_withGhosts, hstart]
  · obtain ⟨d', o', he'⟩ := hevent he
    exact ⟨d', o', mainEvent_event (s := s.withGhosts d o) hq hm hr he'⟩

/-- Where the run hands the ghosts through, so does the operation. -/
theorem mainEvent_withGhosts_of_map {i : Instr} {start : State → State} {event : State → Option State} {s t : State}
    (hstart : ∀ u, start (u.withGhosts d o) = (start u).withGhosts d o)
    (hevent : ∀ u, event (u.withGhosts d o) = (event u).map (State.withGhosts d o))
    (h : mainEvent i start event s = .next t) :
    ∃ d' o', mainEvent i start event (s.withGhosts d o) = .next (t.withGhosts d' o') :=
  mainEvent_withGhosts d o hstart (fun he => ⟨d, o, by rw [hevent, he]; rfl⟩) h

theorem execIrqHandler_withGhosts {s t : State} (h : execIrqHandler s = .next t) :
    execIrqHandler (s.withGhosts d o) = .next (t.withGhosts d o) := by
  unfold execIrqHandler
  obtain ⟨hq, rfl⟩ | ⟨hq, he⟩ := execIrqHandler_next h
  · simp [hq]
  · simp [hq, handlerEvent_withGhosts, he]

/-- 10_state R21, R25: with other values of the ghosts every operation makes the same event. -/
theorem exec_withGhosts {i : Instr} {s t : State} (h : exec i s = .next t) :
    ∃ d' o', exec i (s.withGhosts d o) = .next (t.withGhosts d' o') := by
  cases i with
  | init => exact mainEvent_withGhosts d o (initStart_withGhosts d o) (initEvent_withGhosts d o) h
  | sendChar => exact mainEvent_withGhosts_of_map d o (sendCharStart_withGhosts d o) (sendCharEvent_withGhosts d o) h
  | getChar => exact mainEvent_withGhosts_of_map d o (getCharStart_withGhosts d o) (getCharEvent_withGhosts d o) h
  | sendString =>
    exact mainEvent_withGhosts_of_map d o (sendStringStart_withGhosts d o) (sendCharEvent_withGhosts d o) h
  | enableInterrupts =>
    exact mainEvent_withGhosts_of_map d o (maskStart_withGhosts d o) (maskEvent_withGhosts d o imscEnabling) h
  | disableInterrupts =>
    exact mainEvent_withGhosts_of_map d o (maskStart_withGhosts d o) (maskEvent_withGhosts d o imscDisabling) h
  | clearErrors =>
    exact mainEvent_withGhosts_of_map d o (goto_withGhosts d o .main _) (clearErrorsEvent_withGhosts d o) h
  | getErrorStatus =>
    exact mainEvent_withGhosts_of_map d o (goto_withGhosts d o .main _) (getErrorStatusEvent_withGhosts d o) h
  | irqHandler => exact ⟨d, o, execIrqHandler_withGhosts d o h⟩

end

/-- 10_state R21, R25: no operation but `INIT` writes a ghost. -/
theorem exec_keeps_ghosts {i : Instr} {s t : State} (hi : ∀ baud, i ≠ .init baud) (h : exec i s = .next t) :
    t.devState = s.devState ∧ t.opCfg = s.opCfg := by
  obtain ⟨-, e, -, rfl⟩ | ⟨-, hd, ho, -⟩ := exec_seqKeeps hi h
  · exact ⟨rfl, rfl⟩
  · exact ⟨hd, ho⟩

/-- Settles O40: the state after the event with other ghosts differs from `t` in the ghosts alone. -/
theorem ghostsWrittenByInitReadByNothing : Obligations.GhostsWrittenByInitReadByNothing := by
  intro i s t h
  refine ⟨fun hi => exec_keeps_ghosts hi h, fun d o => ?_⟩
  obtain ⟨d', o', hu⟩ := exec_withGhosts d o h
  exact ⟨t.withGhosts d' o', hu, rfl⟩

end Sys2Proof.Machine
end

section
/-! SUPPORT. 20_memory section 1: the addresses of the registers of a legal configuration (R60, R64). -/

namespace Sys2Proof.Machine

/-- 20_memory R61: the offsets of the address map are multiples of four, the last one is `0x44`. -/
theorem Reg.offset_legal (r : Reg) : r.offset.toNat % 4 = 0 ∧ r.offset.toNat ≤ 0x44 := by
  cases r <;> decide

/-- 00_scope R6: the base of a legal configuration is aligned, and the block ends inside the address space. -/
theorem uartBase_of_wellFormed {k : Cfg} (hk : k.wellFormed = true) :
    k.uartBase.toNat % 4 = 0 ∧ k.uartBase.toNat + 0x47 < 2 ^ 32 := by
  simp only [Cfg.wellFormed, Bool.and_eq_true, beq_iff_eq, decide_eq_true_eq, and_assoc] at hk
  obtain ⟨halign, hend, -⟩ := hk
  exact ⟨halign, hend⟩

/-- Settles O13: an aligned base and an aligned offset within a block that ends inside the address space. -/
theorem registerAddressesAligned : Obligations.RegisterAddressesAligned := by
  intro k r hk
  obtain ⟨hbase, hend⟩ := uartBase_of_wellFormed hk
  obtain ⟨hoff, hlast⟩ := r.offset_legal
  have hsum : (Cfg.addr k r).toNat = k.uartBase.toNat + r.offset.toNat :=
    BitVec.toNat_add_of_lt (by omega)
  omega

end Sys2Proof.Machine
end

section
/-! SUPPORT. 20_memory R84, 60 R220: where the invariant holds R126 gives every busy context its next event, whatever the
oracle answers; so every step is a next state. -/

namespace Sys2Proof.Machine

/-! ### The shared sequences have a next event -/

/-- After a character of a string there is a next one, or the string is done. -/
theorem stringNext_isSome {code : ErrorStatus} {s : State} {b : Byte} (hb : s.latch.str[s.latch.idx]? = some b) :
    (stringNext code s).isSome := by
  have hlt := (List.getElem?_eq_some_iff.1 hb).1
  unfold stringNext
  split
  · simp only
    split
    · rfl
    · have hnext : s.latch.idx + 1 < s.latch.str.length := by omega
      simp [List.getElem?_eq_getElem hnext]
  · rfl

theorem txEnd_isSome {c : Ctx} {s : State} (hs : sending c s) (code : ErrorStatus) : (txEnd c code s).isSome := by
  cases c with
  | irq =>
    have hk : s.q.kont = some .handler := hs
    simp [txEnd, hk]
  | main =>
    obtain ⟨-, hk⟩ | ⟨-, hk, hb⟩ := hs
    · simp [txEnd, hk]
    · simpa [txEnd, hk] using stringNext_isSome hb

theorem rxEnd_isSome {c : Ctx} {s : State} (hs : receiving c s) (code : ErrorStatus) : (rxEnd c code s).isSome := by
  cases c with
  | irq =>
    have hk : s.q.kont = some .handler := hs
    by_cases hc : code = .ok <;> simp [rxEnd, hk, hc]
  | main =>
    obtain ⟨-, -, hk⟩ := hs
    by_cases hc : code = .ok <;> simp [rxEnd, hk, hc]

/-- The micro-states of `SendCharSeq` (40_common R126). -/
def sendPhases : List Phase := [.tStart, .tRFlag, .tNow, .tRRsr, .tWData]

/-- The micro-states of `GetCharSeq` (40_common R126). -/
def getPhases : List Phase := [.gStart, .gRFlag, .gNow, .gRRsr, .gRData]

theorem sending_of_phaseFits {c : Ctx} {s : State} (hf : phaseFits c s) (hp : (s.seq c).phase ∈ sendPhases) :
    sending c s := by
  unfold phaseFits at hf
  simp only [sendPhases, List.mem_cons, List.not_mem_nil, or_false] at hp
  obtain hp | hp | hp | hp | hp := hp <;> simp_all

theorem receiving_of_phaseFits {c : Ctx} {s : State} (hf : phaseFits c s) (hp : (s.seq c).phase ∈ getPhases) :
    receiving c s := by
  unfold phaseFits at hf
  simp only [getPhases, List.mem_cons, List.not_mem_nil, or_false] at hp
  obtain hp | hp | hp | hp | hp := hp <;> simp_all

theorem sendEvent_isSome {c : Ctx} {s : State} (hf : phaseFits c s) (hp : (s.seq c).phase ∈ sendPhases) :
    (sendEvent c s).isSome := by
  have hs := sending_of_phaseFits hf hp
  simp only [sendPhases, List.mem_cons, List.not_mem_nil, or_false] at hp
  unfold sendEvent
  obtain hp | hp | hp | hp | hp := hp <;> simp only [hp]
  · rfl
  · rfl
  · split
    · exact txEnd_isSome (by simpa) _
    · rfl
  · split
    · exact txEnd_isSome (by simpa) _
    · rfl
  · exact txEnd_isSome (by simpa) _

theorem getEvent_isSome {c : Ctx} {s : State} (hf : phaseFits c s) (hp : (s.seq c).phase ∈ getPhases) :
    (getEvent c s).isSome := by
  have hs := receiving_of_phaseFits hf hp
  simp only [getPhases, List.mem_cons, List.not_mem_nil, or_false] at hp
  unfold getEvent
  obtain hp | hp | hp | hp | hp := hp <;> simp only [hp]
  · rfl
  · rfl
  · split
    · exact rxEnd_isSome (by simpa) _
    · rfl
  · split
    · rfl
    · exact rxEnd_isSome (by simpa) _
  · exact rxEnd_isSome (by simpa) _

/-! ### The main operations and the handler have a next event -/

/-- The micro-states of the operation with this code, but for the completion (40_common R126). -/
def opPhases (op : Code) : List Phase :=
  match op.toNat with
  | 1 => [.iWCtrl0, .iWIcr, .iWIbrd, .iWFbrd, .iWLcr, .iWCtrlEn, .iRCtrl]
  | 2 => sendPhases
  | 3 => getPhases
  | 4 => sendPhases
  | 5 => [.mRImsc, .mWImsc]
  | 6 => [.mRImsc, .mWImsc]
  | 7 => [.eWEcr]
  | 8 => [.qRRsr]
  | _ => []

/-- A busy main context is at the completion or in a micro-state of the latched operation. -/
theorem mem_opPhases_of_mainFitsAt {p : Phase} {s : State} (hf : mainFitsAt p s) :
    (∃ code, p = .done code) ∨ p ∈ opPhases s.latch.op := by
  have hsend : mainSending s → opPhases s.latch.op = sendPhases := by
    rintro (⟨ho, -⟩ | ⟨ho, -⟩) <;> simp [ho, opPhases]
  have hget : mainReceiving s → opPhases s.latch.op = getPhases := fun ⟨ho, _⟩ => by rw [ho]; rfl
  have hinit : initConfigured s → opPhases s.latch.op = opPhases 1#4 := fun ⟨ho, _⟩ => by rw [ho]
  have hmask : s.latch.op = 5#4 ∨ s.latch.op = 6#4 → opPhases s.latch.op = opPhases 5#4 := by
    rintro (ho | ho) <;> simp [ho, opPhases]
  cases p <;> simp_all [mainFitsAt, sendPhases, getPhases, opPhases]

/-- Latches that hold no operation fit no micro-state: their code has no sequence and may return nothing. -/
theorem not_mainFitsAt_of_running_none {p : Phase} {s : State} (h : running s = none) : ¬mainFitsAt p s := by
  obtain ⟨hphases, hcodes⟩ : opPhases s.latch.op = [] ∧ ∀ code, mayReturn s.latch.op code = false := by
    unfold running at h
    split at h <;> cases h
    constructor
    · unfold opPhases
      split <;> simp_all
    · intro code
      unfold mayReturn
      split <;> simp_all
  intro hf
  obtain ⟨code, rfl⟩ | hp := mem_opPhases_of_mainFitsAt hf
  · obtain ⟨hmay, -⟩ := hf
    simp [hcodes] at hmay
  · simp [hphases] at hp

theorem initEvent_isSome {s : State} (hf : mainPhaseFits s) (ho : s.latch.op = 1#4) : (initEvent s).isSome := by
  obtain ⟨code, hp⟩ | hp := mem_opPhases_of_mainFitsAt hf
  · simp [initEvent, hp]
  rw [ho] at hp
  have hp : s.m.phase ∈ [Phase.iWCtrl0, .iWIcr, .iWIbrd, .iWFbrd, .iWLcr, .iWCtrlEn, .iRCtrl] := hp
  simp only [List.mem_cons, List.not_mem_nil, or_false] at hp
  unfold initEvent
  obtain hp | hp | hp | hp | hp | hp | hp := hp <;> simp only [hp]
  · rfl
  · split <;> rfl
  · rfl
  · rfl
  · rfl
  · rfl
  · split <;> rfl

theorem sendCharEvent_isSome {s : State} (hf : mainPhaseFits s) (ho : s.latch.op = 2#4 ∨ s.latch.op = 4#4) :
    (sendCharEvent s).isSome := by
  unfold sendCharEvent
  split
  · rfl
  · obtain ⟨code, hp⟩ | hp := mem_opPhases_of_mainFitsAt hf
    · simp_all
    · refine sendEvent_isSome (c := .main) hf ?_
      obtain ho | ho := ho <;> rwa [ho] at hp

theorem getCharEvent_isSome {s : State} (hf : mainPhaseFits s) (ho : s.latch.op = 3#4) :
    (getCharEvent s).isSome := by
  unfold getCharEvent
  split
  · rfl
  · obtain ⟨code, hp⟩ | hp := mem_opPhases_of_mainFitsAt hf
    · simp_all
    · rw [ho] at hp
      exact getEvent_isSome (c := .main) hf hp

theorem maskEvent_isSome {value : Cfg → Word → Word} {s : State} (hf : mainPhaseFits s)
    (ho : s.latch.op = 5#4 ∨ s.latch.op = 6#4) : (maskEvent value s).isSome := by
  obtain ⟨code, hp⟩ | hp := mem_opPhases_of_mainFitsAt hf
  · simp [maskEvent, hp]
  · have hp : s.m.phase ∈ [Phase.mRImsc, .mWImsc] := by obtain ho | ho := ho <;> rwa [ho] at hp
    simp only [List.mem_cons, List.not_mem_nil, or_false] at hp
    obtain hp | hp := hp <;> simp [maskEvent, hp]

theorem clearErrorsEvent_isSome {s : State} (hf : mainPhaseFits s) (ho : s.latch.op = 7#4) :
    (clearErrorsEvent s).isSome := by
  obtain ⟨code, hp⟩ | hp := mem_opPhases_of_mainFitsAt hf
  · simp [clearErrorsEvent, hp]
  · rw [ho] at hp
    simp [clearErrorsEvent, List.mem_singleton.1 hp]

theorem getErrorStatusEvent_isSome {s : State} (hf : mainPhaseFits s) (ho : s.latch.op = 8#4) :
    (getErrorStatusEvent s).isSome := by
  obtain ⟨code, hp⟩ | hp := mem_opPhases_of_mainFitsAt hf
  · simp [getErrorStatusEvent, hp]
  · rw [ho] at hp
    simp [getErrorStatusEvent, List.mem_singleton.1 hp]

/-- A busy irq context is in a micro-state of the handler itself or of one of the two shared sequences. -/
theorem phase_of_irqFitsAt {p : Phase} {s : State} (hf : irqFitsAt p s) :
    p = .hRMis ∨ p = .hWIcr ∨ p = .hDone ∨ p ∈ getPhases ∨ p ∈ sendPhases := by
  cases p <;> simp_all [irqFitsAt, getPhases, sendPhases]

theorem handlerEvent_isSome {s : State} (hf : irqPhaseFits s) : (handlerEvent s).isSome := by
  unfold handlerEvent
  split
  · simp only
    split <;> rfl
  · rfl
  · rfl
  · split
    · rfl
    · rename_i hg
      obtain hp | hp | hp | hp | hp := phase_of_irqFitsAt hf
      · contradiction
      · contradiction
      · contradiction
      · simpa [hg] using getEvent_isSome (c := .irq) hf hp
      · exact sendEvent_isSome (c := .irq) hf hp

/-! ### An event, a step -/

/-- A main operation answers a next state where its run has a next event. -/
theorem mainEvent_possible {i : Instr} {start : State → State} {event : State → Option State} {s : State} (hI : Inv s)
    (hrun : mainPhaseFits s → s.latch.op = i.op → (event s).isSome) : ∃ t, mainEvent i start event s = .next t := by
  cases h : mainEvent i start event s with
  | next t => exact ⟨t, rfl⟩
  | refused r => exact absurd h mainEvent_not_refused
  | fault r =>
    obtain ⟨-, -, hm, hr, he⟩ := mainEvent_fault h
    simpa [he] using hrun (hI.mainBusy hm) (running_latch hr).1

theorem execIrqHandler_possible {s : State} (hI : Inv s) : ∃ t, execIrqHandler s = .next t := by
  unfold execIrqHandler
  split
  · obtain ⟨t, ht⟩ := Option.isSome_iff_exists.1 (handlerEvent_isSome (hI.irqBusy ‹_›))
    exact ⟨t, by rw [ht]⟩
  · exact ⟨_, rfl⟩

/-- 60 R220: one event of any operation is a next state where the invariant holds. -/
theorem exec_possible (i : Instr) {s : State} (hI : Inv s) : ∃ t, exec i s = .next t := by
  cases i with
  | init => exact mainEvent_possible hI initEvent_isSome
  | sendChar => exact mainEvent_possible hI fun hf ho => sendCharEvent_isSome hf (.inl ho)
  | getChar => exact mainEvent_possible hI getCharEvent_isSome
  | sendString => exact mainEvent_possible hI fun hf ho => sendCharEvent_isSome hf (.inr ho)
  | enableInterrupts => exact mainEvent_possible hI fun hf ho => maskEvent_isSome hf (.inl ho)
  | disableInterrupts => exact mainEvent_possible hI fun hf ho => maskEvent_isSome hf (.inr ho)
  | clearErrors => exact mainEvent_possible hI clearErrorsEvent_isSome
  | getErrorStatus => exact mainEvent_possible hI getErrorStatusEvent_isSome
  | irqHandler => exact execIrqHandler_possible hI

/-- The main context's move is an event or nothing, where its latches fit and the port offers no undecodable word. -/
theorem fetchMain_possible {s : State} (hI : Inv s) (hport : ∀ o ∈ s.port.head?, ∃ i, decode o = .ok i) :
    (∃ i u, fetchMain s = .run i u ∧ Inv u) ∨ fetchMain s = .idle s := by
  unfold fetchMain
  split
  · split
    · exact .inl ⟨_, s, rfl, hI⟩
    · exact absurd (hI.mainBusy ‹_›) (not_mainFitsAt_of_running_none ‹_›)
  · split
    · exact .inr rfl
    · rename_i o rest hp
      obtain ⟨i, hi⟩ := hport o (by simp [hp])
      exact .inl ⟨i, _, by rw [hi], hI.withdraw rest⟩

/-- What the step does is an event in a state that keeps the invariant, or nothing. -/
theorem fetch_possible {s : State} (hI : Inv s) (hport : ∀ o ∈ s.port.head?, ∃ i, decode o = .ok i) :
    (∃ i u, fetch s = .run i u ∧ Inv u) ∨ fetch s = .idle (takeTurn s) := by
  unfold fetch
  split
  · exact .inl ⟨_, _, rfl, hI⟩
  · split
    · exact .inl ⟨_, _, rfl, hI.takeTurn⟩
    · exact fetchMain_possible hI.takeTurn (by simpa using hport)

theorem step_possible {s : State} (hI : Inv s) (hport : ∀ o ∈ s.port.head?, ∃ i, decode o = .ok i) :
    ∃ t, step s = .next t := by
  unfold step
  obtain ⟨i, u, hf, hu⟩ | hf := fetch_possible hI hport
  · rw [hf]
    exact exec_possible i hu
  · rw [hf]
    exact ⟨_, rfl⟩

/-- The invariant says nothing of the answers to come. -/
theorem Inv.withAnswers {s : State} (hI : Inv s) (bus clock : List Word) :
    Inv { s with busAnswers := bus, clockAnswers := clock } :=
  inv_of_irq hI rfl rfl rfl rfl rfl rfl rfl rfl hI.irqIdle hI.irqBusy

/-- Settles O37: the invariant and the port are the same whatever the answers. -/
theorem everyStepIsPossible : Obligations.EveryStepIsPossible := fun _ bus clock hI hport =>
  step_possible (hI.withAnswers bus clock) hport

end Sys2Proof.Machine
end

section
/-! SUPPORT. 20_memory R83: the block never reads the history. A history put before the present one goes through every
event unchanged, where the oracle's answers are queued; so every event appends the same to any history. -/

namespace Sys2Proof.Machine

/-- The same state with the history `past` before its own. -/
def State.precededBy (past : List Event) (s : State) : State := { s with history := past ++ s.history }

/-- The oracle's next answers are given, so that they are not drawn from the history (20_memory R84). -/
def answersQueued (s : State) : Prop := s.busAnswers ≠ [] ∧ s.clockAnswers ≠ []

/-- The same outcome with another next state. -/
def mapNext (f : State → State) : Host.Outcome State Fault Refusal → Host.Outcome State Fault Refusal
  | .next s => .next (f s)
  | .fault r => .fault r
  | .refused r => .refused r

theorem mapNext_eq_next {f : State → State} {x : Host.Outcome State Fault Refusal} {t : State}
    (h : mapNext f x = .next t) : ∃ u, x = .next u ∧ t = f u := by
  cases x <;> cases h
  exact ⟨_, rfl, rfl⟩

section
variable (past : List Event)

/-! ### What the sequencers look at is not changed -/

@[simp] theorem precededBy_cfg (s : State) : (s.precededBy past).cfg = s.cfg := rfl
@[simp] theorem precededBy_m (s : State) : (s.precededBy past).m = s.m := rfl
@[simp] theorem precededBy_q (s : State) : (s.precededBy past).q = s.q := rfl
@[simp] theorem precededBy_latch (s : State) : (s.precededBy past).latch = s.latch := rfl
@[simp] theorem precededBy_seq (c : Ctx) (s : State) : (s.precededBy past).seq c = s.seq c := by cases c <;> rfl
@[simp] theorem precededBy_running (s : State) : running (s.precededBy past) = running s := rfl
@[simp] theorem precededBy_budget (c : Ctx) (s : State) : budget c (s.precededBy past) = budget c s := by cases c <;> rfl
@[simp] theorem precededBy_txChar (c : Ctx) (s : State) : txChar c (s.precededBy past) = txChar c s := by cases c <;> rfl

theorem precededBy_busAnswer {s : State} (hs : answersQueued s) (c : Ctx) (r : Reg) :
    busAnswer c r (s.precededBy past) = busAnswer c r s := by
  obtain ⟨v, vs, hv⟩ := List.exists_cons_of_ne_nil hs.1
  simp [busAnswer, State.precededBy, hv]

theorem precededBy_clockAnswer {s : State} (hs : answersQueued s) (c : Ctx) :
    clockAnswer c (s.precededBy past) = clockAnswer c s := by
  obtain ⟨v, vs, hv⟩ := List.exists_cons_of_ne_nil hs.2
  simp [clockAnswer, State.precededBy, hv]

/-! ### The operations on the state go through -/

@[simp] theorem goto_precededBy (c : Ctx) (p : Phase) (s : State) :
    goto c p (s.precededBy past) = (goto c p s).precededBy past := by cases c <;> rfl
@[simp] theorem setKont_precededBy (c : Ctx) (k : Kont) (s : State) :
    setKont c k (s.precededBy past) = (setKont c k s).precededBy past := by cases c <;> rfl
@[simp] theorem writeReg_precededBy (c : Ctx) (r : Reg) (v : Word) (s : State) :
    writeReg c r v (s.precededBy past) = (writeReg c r v s).precededBy past := by simp [writeReg, State.precededBy]
@[simp] theorem accept_precededBy (i : Instr) (s : State) :
    accept i (s.precededBy past) = (accept i s).precededBy past := rfl
@[simp] theorem complete_precededBy (e : ErrorStatus) (s : State) :
    complete e (s.precededBy past) = (complete e s).precededBy past := rfl
@[simp] theorem enterHandler_precededBy (s : State) :
    enterHandler (s.precededBy past) = (enterHandler s).precededBy past := rfl
@[simp] theorem leaveHandler_precededBy (s : State) :
    leaveHandler (s.precededBy past) = (leaveHandler s).precededBy past := rfl

theorem readReg_precededBy {s : State} (hs : answersQueued s) (c : Ctx) (r : Reg) :
    readReg c r (s.precededBy past) = (readReg c r s).precededBy past := by
  rw [readReg, precededBy_busAnswer past hs]
  cases c <;> simp [readReg, State.precededBy, State.setSeq]

theorem sampleNow_precededBy {s : State} (hs : answersQueued s) (c : Ctx) :
    sampleNow c (s.precededBy past) = (sampleNow c s).precededBy past := by
  rw [sampleNow, precededBy_clockAnswer past hs]
  simp [sampleNow, State.precededBy]

theorem startClock_precededBy {s : State} (hs : answersQueued s) (c : Ctx) :
    startClock c (s.precededBy past) = (startClock c s).precededBy past := by
  rw [startClock, precededBy_clockAnswer past hs, sampleNow_precededBy past hs]
  cases c <;> rfl

/-! ### The acceptances -/

@[simp] theorem txStart_precededBy (c : Ctx) (s : State) :
    txStart c (s.precededBy past) = (txStart c s).precededBy past := by simp [txStart_eq]

@[simp] theorem rxStart_precededBy (c : Ctx) (s : State) :
    rxStart c (s.precededBy past) = (rxStart c s).precededBy past := by simp [rxStart_eq]

theorem initStart_precededBy (s : State) : initStart (s.precededBy past) = (initStart s).precededBy past := by
  by_cases ha : s.latch.arg = 0#32 <;> simp [initStart, ha]

theorem sendCharStart_precededBy (s : State) :
    sendCharStart (s.precededBy past) = (sendCharStart s).precededBy past := by simp [sendCharStart]

theorem getCharStart_precededBy (s : State) :
    getCharStart (s.precededBy past) = (getCharStart s).precededBy past := by
  cases hp : s.latch.p <;> simp [getCharStart, hp]

theorem sendStringStart_precededBy (s : State) :
    sendStringStart (s.precededBy past) = (sendStringStart s).precededBy past := by
  cases hp : s.latch.p with
  | false => simp [sendStringStart, hp]
  | true =>
    simp only [sendStringStart, precededBy_latch, hp, if_true, txStart_eq]
    cases s.latch.str <;> rfl

theorem maskStart_precededBy (s : State) : maskStart (s.precededBy past) = (maskStart s).precededBy past := by
  unfold maskStart
  simp only [precededBy_cfg]
  split <;> simp

/-! ### The shared sequences -/

theorem stringNext_precededBy (code : ErrorStatus) (s : State) :
    stringNext code (s.precededBy past) = (stringNext code s).map (State.precededBy past) := by
  unfold stringNext
  simp only [precededBy_latch, txStart_eq]
  split
  · split
    · rfl
    · split <;> rfl
  · rfl

theorem txEnd_precededBy (c : Ctx) (code : ErrorStatus) (s : State) :
    txEnd c code (s.precededBy past) = (txEnd c code s).map (State.precededBy past) := by
  cases c with
  | main =>
    simp only [txEnd, precededBy_m]
    split <;> simp [stringNext_precededBy]
  | irq =>
    simp only [txEnd, precededBy_q]
    split <;> simp

theorem rxEnd_precededBy (c : Ctx) (code : ErrorStatus) (s : State) :
    rxEnd c code (s.precededBy past) = (rxEnd c code s).map (State.precededBy past) := by
  cases c with
  | main =>
    simp only [rxEnd, precededBy_m]
    split
    · split <;> rfl
    all_goals rfl
  | irq =>
    simp only [rxEnd, precededBy_q, txStart_eq]
    split
    · split <;> rfl
    all_goals rfl

section
variable {s : State} (hs : answersQueued s)
include hs

theorem sendEvent_precededBy (c : Ctx) :
    sendEvent c (s.precededBy past) = (sendEvent c s).map (State.precededBy past) := by
  unfold sendEvent
  simp only [precededBy_seq, precededBy_cfg, precededBy_budget, precededBy_clockAnswer past hs,
    readReg_precededBy past hs, sampleNow_precededBy past hs]
  split
  · simp [pollStart, startClock_precededBy past hs]
  · simp [pollFlag_eq, precededBy_busAnswer past hs, readReg_precededBy past hs]
  · split <;> simp [txEnd_precededBy]
  · split <;> simp [txEnd_precededBy]
  · simp [txEnd_precededBy]
  · rfl

theorem getEvent_precededBy (c : Ctx) :
    getEvent c (s.precededBy past) = (getEvent c s).map (State.precededBy past) := by
  unfold getEvent
  simp only [precededBy_seq, precededBy_cfg, precededBy_budget, precededBy_clockAnswer past hs,
    readReg_precededBy past hs, sampleNow_precededBy past hs]
  split
  · simp [pollStart, startClock_precededBy past hs]
  · simp [pollFlag_eq, precededBy_busAnswer past hs, readReg_precededBy past hs]
  · split <;> simp [rxEnd_precededBy]
  · split <;> simp [rxEnd_precededBy]
  · simp [rxEnd_precededBy]
  · rfl

/-! ### The events of each operation -/

theorem initEvent_precededBy :
    initEvent (s.precededBy past) = (initEvent s).map (State.precededBy past) := by
  unfold initEvent
  simp only [precededBy_m, precededBy_cfg, precededBy_latch, writeReg_precededBy, readReg_precededBy past hs]
  split
  · rfl
  · split <;> rfl
  · simp
  · simp
  · simp
  · simp
  · split <;> rfl
  · rfl
  · rfl

theorem sendCharEvent_precededBy :
    sendCharEvent (s.precededBy past) = (sendCharEvent s).map (State.precededBy past) := by
  unfold sendCharEvent
  simp only [precededBy_m]
  split
  · rfl
  · exact sendEvent_precededBy past hs .main

theorem getCharEvent_precededBy :
    getCharEvent (s.precededBy past) = (getCharEvent s).map (State.precededBy past) := by
  unfold getCharEvent
  simp only [precededBy_m]
  split
  · rfl
  · exact getEvent_precededBy past hs .main

theorem maskEvent_precededBy (value : Cfg → Word → Word) :
    maskEvent value (s.precededBy past) = (maskEvent value s).map (State.precededBy past) := by
  unfold maskEvent
  simp only [precededBy_m]
  split <;> simp [readReg_precededBy past hs]

theorem getErrorStatusEvent_precededBy :
    getErrorStatusEvent (s.precededBy past) = (getErrorStatusEvent s).map (State.precededBy past) := by
  unfold getErrorStatusEvent
  simp only [precededBy_m]
  split <;> simp [readReg_precededBy past hs]

theorem handlerEvent_precededBy :
    handlerEvent (s.precededBy past) = (handlerEvent s).map (State.precededBy past) := by
  unfold handlerEvent
  simp only [precededBy_q, readReg_precededBy past hs, getEvent_precededBy past hs, sendEvent_precededBy past hs]
  split
  · cases hv : anySet (busAnswer .irq .mis s) s.cfg.intRx <;> simp [hv]
  · simp
  · rfl
  · cases getEvent .irq s <;> rfl

end

theorem clearErrorsEvent_precededBy (s : State) :
    clearErrorsEvent (s.precededBy past) = (clearErrorsEvent s).map (State.precededBy past) := by
  unfold clearErrorsEvent
  simp only [precededBy_m]
  split <;> simp

/-! ### An event of any operation -/

theorem mainEvent_precededBy {i : Instr} {start : State → State} {event : State → Option State} {s : State}
    (hstart : ∀ u, start (u.precededBy past) = (start u).precededBy past)
    (hevent : event (s.precededBy past) = (event s).map (State.precededBy past)) :
    mainEvent i start event (s.precededBy past) = mapNext (State.precededBy past) (mainEvent i start event s) := by
  unfold mainEvent
  simp only [precededBy_q, precededBy_m, precededBy_running, accept_precededBy, hstart, hevent]
  split
  · rfl
  · split
    · split
      · cases event s <;> rfl
      · rfl
    · rfl

theorem execIrqHandler_precededBy {s : State} (hs : answersQueued s) :
    execIrqHandler (s.precededBy past) = mapNext (State.precededBy past) (execIrqHandler s) := by
  unfold execIrqHandler
  simp only [precededBy_q, handlerEvent_precededBy past hs, enterHandler_precededBy]
  split
  · cases handlerEvent s <;> rfl
  · rfl

/-- 20_memory R83: an event goes on after any history in the same way. -/
theorem exec_precededBy (i : Instr) {s : State} (hs : answersQueued s) :
    exec i (s.precededBy past) = mapNext (State.precededBy past) (exec i s) := by
  cases i with
  | init => exact mainEvent_precededBy past (initStart_precededBy past) (initEvent_precededBy past hs)
  | sendChar => exact mainEvent_precededBy past (sendCharStart_precededBy past) (sendCharEvent_precededBy past hs)
  | getChar => exact mainEvent_precededBy past (getCharStart_precededBy past) (getCharEvent_precededBy past hs)
  | sendString => exact mainEvent_precededBy past (sendStringStart_precededBy past) (sendCharEvent_precededBy past hs)
  | enableInterrupts => exact mainEvent_precededBy past (maskStart_precededBy past) (maskEvent_precededBy past hs _)
  | disableInterrupts => exact mainEvent_precededBy past (maskStart_precededBy past) (maskEvent_precededBy past hs _)
  | clearErrors => exact mainEvent_precededBy past (goto_precededBy past _ _) (clearErrorsEvent_precededBy past s)
  | getErrorStatus =>
    exact mainEvent_precededBy past (goto_precededBy past _ _) (getErrorStatusEvent_precededBy past hs)
  | irqHandler => exact execIrqHandler_precededBy past hs

end

/-- Settles O41: the event from the empty history goes on after the one history as after the other. -/
theorem historyIsNeverRead : Obligations.HistoryIsNeverRead := by
  intro i s t h hbus hclock hst
  have hafter : ∀ past, exec i { s with history := past }
      = mapNext (State.precededBy past) (exec i { s with history := [] }) := fun past => by
    rw [← exec_precededBy past i (s := { s with history := [] }) ⟨hbus, hclock⟩]
    simp [State.precededBy]
  obtain ⟨u, hu, rfl⟩ := mapNext_eq_next ((hafter s.history).symm.trans hst)
  exact ⟨u.history, rfl, by rw [hafter h, hu]; rfl⟩

end Sys2Proof.Machine
end

section
/-! SUPPORT. 30_encoding R90 to R96: the decoder and the encoder invert each other, the decoder accepts exactly the words
the rows of R92 spell, and the worked encodings of R101. -/

namespace Sys2Proof

open Sys2Proof.Machine (Ctx)

/-! ### The decoder takes what the encoder gives -/

/-- The payload of a well-formed string operation is its string (R96). -/
theorem payload_of_wellFormed {p : Bool} {str : List Byte} {b : Word}
    (h : (Instr.sendString p str b).wellFormed = true) : (if p then str else []) = str := by
  cases p with
  | true => rfl
  | false =>
    have hstr : str = [] := by simpa [Instr.wellFormed] using h
    rw [hstr]
    rfl

/-- The encoding of an operation spells it, with its own payload (R90 to R93, R96). -/
theorem decodeWord_encode {i : Instr} (h : i.wellFormed = true) : decodeWord (encode i) i.payload = .ok i := by
  unfold encode decodeWord
  cases i with
  | sendString p str b =>
    have hstr := payload_of_wellFormed h
    cases p <;> simp_all [requireNoC, Instr.op, Instr.p, Instr.c, Instr.arg, Instr.payload]
  | getChar p b => cases p <;> simp [requireNoC, Instr.op, Instr.p, Instr.c, Instr.arg]
  | _ => simp [requireNoOperands, requireNoPC, requireNoC, Instr.op, Instr.p, Instr.c, Instr.arg]

/-- The decoder accepts a word that spells an operation, under the operation's own tag (R91, R92). -/
theorem decode_ok_iff {o : Offer} {i : Instr} :
    decode o = .ok i ↔ decodeWord o.cw o.payload = .ok i ∧ o.ctx = i.ctx := by
  cases hw : decodeWord o.cw o.payload with
  | invalid e => simp [decode, hw]
  | ok j =>
    by_cases hc : o.ctx = j.ctx
    · simp only [decode, hw, if_pos hc, Decoded.ok.injEq]
      exact ⟨fun hj => ⟨hj, hj ▸ hc⟩, fun ⟨hj, _⟩ => hj⟩
    · simp only [decode, hw, if_neg hc, Decoded.ok.injEq, reduceCtorEq, false_iff, not_and]
      exact fun hj => hj ▸ hc

/-- A word that spells nothing is invalid under either tag (R94). -/
theorem decode_of_invalid {w : CommandWord} {payload : List Byte} {e : DecodeError}
    (h : decodeWord w payload = .invalid e) (c : Ctx) : decode ⟨c, w, payload⟩ = .invalid e := by
  rw [decode, h]

/-- The decoder is total: it accepts or it answers invalid (R94). -/
theorem decode_invalid_of_not_ok {o : Offer} (h : ∀ i, decode o ≠ .ok i) : ∃ e, decode o = .invalid e := by
  cases hd : decode o with
  | ok i => exact absurd hd (h i)
  | invalid e => exact ⟨e, rfl⟩

/-- Settles O1: the word spells the operation, and the tag is the operation's own. -/
theorem encodeDecodeRoundTrip : Obligations.EncodeDecodeRoundTrip := fun _ h =>
  decode_ok_iff.2 ⟨decodeWord_encode h, rfl⟩

/-- Settles O2: the word is assembled from its own fields, which are the operation's. -/
theorem decodedWordIsItsEncoding : Obligations.DecodedWordIsItsEncoding := by
  intro o i h
  obtain ⟨hw, hc⟩ := decode_ok_iff.1 h
  obtain ⟨-, -, -, -, -, hwf⟩ := decodeWord_ok hw
  exact ⟨encode_of_decodeWord hw, hc.symm, hwf⟩

/-! ### The rows of R92 -/

/-- Every operation's command is spelled by its own row. -/
theorem spelledByItsRow (i : Instr) : Laws.SpelledByItsRow.Statement i := by
  cases i with
  | init baud => exact Laws.SpelledByItsRow.init baud
  | sendChar c b => exact Laws.SpelledByItsRow.sendChar c b
  | getChar p b => exact Laws.SpelledByItsRow.getChar p b
  | sendString p str b => exact Laws.SpelledByItsRow.sendString p str b
  | enableInterrupts => exact Laws.SpelledByItsRow.enableInterrupts
  | disableInterrupts => exact Laws.SpelledByItsRow.disableInterrupts
  | clearErrors => exact Laws.SpelledByItsRow.clearErrors
  | getErrorStatus => exact Laws.SpelledByItsRow.getErrorStatus
  | irqHandler => exact Laws.SpelledByItsRow.irqHandler

/-- No two rows have the same operation code. -/
theorem row_eq_of_op_eq : ∀ r ∈ rows, ∀ r' ∈ rows, r.op = r'.op → r = r' := by decide

/-- A row is spelled by the word and the tag alone, not by the payload (R92). -/
theorem Row.spelledBy_congr (r : Row) {o o' : Offer} (hw : o.cw = o'.cw) (hc : o.ctx = o'.ctx) :
    r.spelledBy o = r.spelledBy o' := by
  rw [Row.spelledBy, hw, hc, Row.spelledBy]

/-- What the decoder accepts is spelled by a row with the operation's code. -/
theorem spelledBy_of_decode {o : Offer} {i : Instr} (h : decode o = .ok i) :
    ∃ r ∈ rows, r.op = i.op ∧ r.spelledBy o = true := by
  obtain ⟨hw, hc, -⟩ := decodedWordIsItsEncoding o i h
  obtain ⟨r, hr, ho, hs⟩ := spelledByItsRow i
  exact ⟨r, hr, ho, (r.spelledBy_congr (o' := i.offer) hw.symm hc.symm).trans hs⟩

/-- A field that the mask covers is the match's. -/
theorem extractLsb'_of_masked {w mask mtch : CommandWord} (h : w &&& mask = mtch) (start len : Nat)
    (hm : mask.extractLsb' start len = BitVec.allOnes len) : w.extractLsb' start len = mtch.extractLsb' start len := by
  rw [← h, BitVec.extractLsb'_and, hm, BitVec.and_allOnes]

/-- Every row's mask covers `op` and `z` (R92, R93). -/
theorem mask_covers_op_z : ∀ r ∈ rows, opField r.mask = BitVec.allOnes 4 ∧ zField r.mask = BitVec.allOnes 3 := by
  decide

/-- A row's match is its code, with `z`, `p` and `c` zero (R92, R93). -/
theorem fields_of_match : ∀ r ∈ rows, opField r.mtch = r.op ∧ zField r.mtch = 0#3 ∧ pField r.mtch = 0#1
    ∧ cField r.mtch = 0#8 := by decide

/-- A word that is a row's match under the row's mask spells an operation of the row: the fields the mask covers are
those that must be zero (R92, R93), and the mask of a row with no operands covers the whole word. -/
theorem decodeWord_of_masked {r : Row} (hr : r ∈ rows) {w : CommandWord} (h : w &&& r.mask = r.mtch)
    (payload : List Byte) : ∃ i, decodeWord w payload = .ok i ∧ i.op = r.op ∧ i.ctx = r.ctx := by
  obtain ⟨hopMask, hzMask⟩ := mask_covers_op_z r hr
  obtain ⟨hopMatch, hzMatch, hpMatch, hcMatch⟩ := fields_of_match r hr
  have hop : opField w = r.op := (extractLsb'_of_masked h 44 4 hopMask).trans hopMatch
  have hz : zField w = 0#3 := (extractLsb'_of_masked h 41 3 hzMask).trans hzMatch
  have hp : pField r.mask = BitVec.allOnes 1 → pField w = 0#1 := fun hm =>
    (extractLsb'_of_masked h 40 1 hm).trans hpMatch
  have hc : cField r.mask = BitVec.allOnes 8 → cField w = 0#8 := fun hm =>
    (extractLsb'_of_masked h 32 8 hm).trans hcMatch
  have hw : r.mask = BitVec.allOnes 48 → w = r.mtch := fun hm => by rwa [hm, BitVec.and_allOnes] at h
  simp only [rows, List.mem_cons, List.not_mem_nil, or_false] at hr
  obtain rfl | rfl | rfl | rfl | rfl | rfl | rfl | rfl | rfl := hr
  · exact ⟨.init (argField w), by simp [decodeWord, requireNoPC, requireNoC, hz, hop, hp rfl, hc rfl], rfl, rfl⟩
  · exact ⟨.sendChar (cField w) (argField w), by simp [decodeWord, hz, hop, hp rfl], rfl, rfl⟩
  · exact ⟨.getChar (pField w == 1#1) (argField w), by simp [decodeWord, requireNoC, hz, hop, hc rfl], rfl, rfl⟩
  · exact ⟨.sendString (pField w == 1#1) (if pField w = 1#1 then payload else []) (argField w),
      by simp [decodeWord, requireNoC, hz, hop, hc rfl], rfl, rfl⟩
  · exact ⟨.enableInterrupts, hw rfl ▸ rfl, rfl, rfl⟩
  · exact ⟨.disableInterrupts, hw rfl ▸ rfl, rfl, rfl⟩
  · exact ⟨.clearErrors, hw rfl ▸ rfl, rfl, rfl⟩
  · exact ⟨.getErrorStatus, hw rfl ▸ rfl, rfl, rfl⟩
  · exact ⟨.irqHandler, hw rfl ▸ rfl, rfl, rfl⟩

/-- Settles O3: a decoded operation's row is the one with its code; a spelled word decodes field by field. -/
theorem wordSpellsRowByMatchAndMask : Obligations.WordSpellsRowByMatchAndMask := by
  intro r hr o
  constructor
  · rintro ⟨i, hi, ho⟩
    obtain ⟨r', hr', ho', hs⟩ := spelledBy_of_decode hi
    rwa [row_eq_of_op_eq r hr r' hr' (ho.symm.trans ho'.symm)]
  · intro hs
    obtain ⟨hw, hc⟩ : o.cw &&& r.mask = r.mtch ∧ r.ctx = o.ctx := by simpa [Row.spelledBy] using hs
    obtain ⟨i, hi, hop, hic⟩ := decodeWord_of_masked hr hw o.payload
    exact ⟨i, decode_ok_iff.2 ⟨hi, (hic.trans hc).symm⟩, hop⟩

/-! ### Worked encodings -/

/-- Settles O4: each word is computed; a word that spells nothing is refused before its tag is looked at. -/
theorem workedEncodings : Obligations.WorkedEncodings := by
  refine ⟨by decide, by decide, by decide, by decide, by decide, by decide, by decide, by decide, by decide, by decide,
    by decide, by decide, by decide, by decide, by decide, by decide, by decide, by decide,
    ⟨.wrongContext, by decide⟩, ⟨.wrongContext, by decide⟩, fun c => ⟨?_, ?_, ?_, ?_, ?_⟩⟩
  · exact ⟨.reservedOp, decode_of_invalid (by decide) c⟩
  · exact ⟨.pNotZero, decode_of_invalid (by decide) c⟩
  · exact ⟨.argNotZero, decode_of_invalid (by decide) c⟩
  · exact ⟨.cNotZero, decode_of_invalid (by decide) c⟩
  · exact ⟨.zNotZero, decode_of_invalid (by decide) c⟩

end Sys2Proof
end

section
/-! SUPPORT. 30_encoding R94, R97, R98 and the step: what the main context does with an offered command, the codes of the
Error Status, and what a completion reports. -/

namespace Sys2Proof.Machine

/-- Settles O6: a code reads back as its Error Status, so no two have the same. -/
theorem errorStatusCodes : Obligations.ErrorStatusCodes := by
  refine ⟨rfl, fun e f h => ?_, fun e => by cases e <;> decide⟩
  have hef : some e = some f := by rw [← ofCode_code e, ← ofCode_code f, h]
  exact Option.some.inj hef

/-! ### An offered command -/

/-- With no handler running, the turn can be the main context's (60 R236). -/
theorem fetch_of_main_turn {s : State} (hq : s.q.busy = false) (ht : nextTurn s = .main) :
    fetch s = fetchMain (takeTurn s) := by
  simp [fetch, hq, ht]

/-- An idle main context refuses an invalid command at the port's head (R94). -/
theorem fetchMain_of_invalid {s : State} {o : Offer} {rest : List Offer} {e : DecodeError} (hm : s.m.busy = false)
    (hport : s.port = o :: rest) (hd : decode o = .invalid e) : fetchMain s = .refuse e := by
  simp [fetchMain, hm, hport, hd]

/-- An idle main context accepts an operation at the port's head (40_common R120). -/
theorem fetchMain_of_ok {s : State} {o : Offer} {rest : List Offer} {i : Instr} (hm : s.m.busy = false)
    (hport : s.port = o :: rest) (hd : decode o = .ok i) : fetchMain s = .run i { s with port := rest } := by
  simp [fetchMain, hm, hport, hd]

/-- Settles O5: a word the decoder accepted would be spelled by its operation's row. -/
theorem unspelledWordIsRefused : Obligations.UnspelledWordIsRefused := by
  intro s o rest hidle ht hport hun
  obtain ⟨hm, hq⟩ := hidle
  obtain ⟨e, he⟩ : ∃ e, decode o = .invalid e := by
    refine decode_invalid_of_not_ok fun i hi => ?_
    obtain ⟨r, hr, -, hs⟩ := spelledBy_of_decode hi
    simp [hun r hr] at hs
  have hf : fetch s = .refuse e :=
    (fetch_of_main_turn hq ht).trans (fetchMain_of_invalid (by simpa using hm) (by simpa using hport) he)
  exact ⟨e, he, by rw [step, hf]⟩

/-- A command placed where the next step takes it is what that step runs, in the state with both contexts idle and the
turns and the port as they were (log entry 12). -/
theorem fetch_placeOffer {o : Offer} {i : Instr} (s : State) (hd : decode o = .ok i) :
    fetch (placeOffer o s) = .run i { s with
      m := { s.m with busy := false, phase := .idle, kont := none }
      q := { s.q with busy := false, phase := .idle, kont := none } } := by
  rw [fetch_of_main_turn rfl rfl, fetchMain_of_ok rfl rfl hd]
  rfl

theorem decode_of_decodeTableWord {nbits w : Nat} {i : Instr} (h : decodeTableWord nbits w = some i) :
    decode (tableOffer nbits w) = .ok i := by
  unfold decodeTableWord at h
  split at h <;> cases h
  assumption

/-- Settles O8: the word is placed as an offer that decodes. -/
theorem fetchWordRunsNext : Obligations.FetchWordRunsNext := by
  intro s nbits w i h
  rw [step, State.withFetchWord, fetch_placeOffer s (decode_of_decodeTableWord h)]

/-! ### Completion -/

/-- The latches hold a well-formed operation of the main context (10_state R22, 30_encoding R91, R96). -/
theorem running_main {s : State} {i : Instr} (h : running s = some i) : i.ctx = .main ∧ i.wellFormed = true := by
  unfold running at h
  split at h <;> cases h <;> simp [Instr.ctx, Instr.wellFormed]
  cases s.latch.p <;> simp

/-- Every running main operation completes in `DONE(e)` in the same way (40_common R120(4)). -/
theorem exec_of_done {s : State} {i : Instr} {e : ErrorStatus} (hq : s.q.busy = false) (hm : s.m.busy = true)
    (hr : running s = some i) (hp : s.m.phase = .done e) : exec i s = .next (complete e s) := by
  obtain ⟨hctx, hwf⟩ := running_main hr
  cases i with
  | init => exact mainEvent_event hq hm hr (by simp [initEvent, hp])
  | sendChar => exact mainEvent_event hq hm hr (by simp [sendCharEvent, hp])
  | getChar => exact mainEvent_event hq hm hr (by simp [getCharEvent, hp])
  | sendString =>
    rw [exec, execSendString, payload_of_wellFormed hwf]
    exact mainEvent_event hq hm hr (by simp [sendStringEvent, hp])
  | enableInterrupts => exact mainEvent_event hq hm hr (by simp [maskEvent, hp])
  | disableInterrupts => exact mainEvent_event hq hm hr (by simp [maskEvent, hp])
  | clearErrors => exact mainEvent_event hq hm hr (by simp [clearErrorsEvent, hp])
  | getErrorStatus => exact mainEvent_event hq hm hr (by simp [getErrorStatusEvent, hp])
  | irqHandler => cases hctx

/-- Settles O24: a completion is `complete`, which clears `kont`; an event of the handler leaves the reports alone. -/
theorem completionReports : Obligations.CompletionReports := by
  refine ⟨fun s i e hq hm hr hp => ⟨none, exec_of_done hq hm hr hp⟩, fun s t h => ?_⟩
  obtain ⟨-, hr, hrs⟩ := (execIrqHandler_seqKeeps h).reportKeeps
  exact ⟨hr, hrs⟩

end Sys2Proof.Machine
end

section
/-! SUPPORT. 40_common section 1 to section 4: the status decode and the deadline test as functions of values (R121,
R122, R124), and what an idle and a busy context do with a command offered (R120, 60 R236). -/

namespace Sys2Proof.Machine

/-! ### Bit tests and the status decode -/

/-- No bit of the mask is set exactly when the masked value is zero (00_scope R7). -/
theorem anySet_eq_false_iff {v mask : Word} : anySet v mask = false ↔ v &&& mask = 0#32 := by simp [anySet]

theorem anySet_or (v a b : Word) : anySet v (a ||| b) = (anySet v a || anySet v b) := by
  rw [Bool.eq_iff_iff]
  simp [anySet, BitVec.and_or_distrib_left, imp_iff_not_or]

/-- A bit of `RSR_ANY` is set exactly when one of the four errors' bits is (00_scope R6). -/
theorem anySet_rsrAny (k : Cfg) (v : Word) :
    anySet v k.rsrAny = (anySet v k.rsrOe || anySet v k.rsrFe || anySet v k.rsrPe || anySet v k.rsrBe) := by
  simp only [Cfg.rsrAny, anySet_or]

/-- `RSR_ANY` covers each error's mask. -/
theorem rsrAny_and {k : Cfg} {mask : Word} (hm : mask ∈ [k.rsrOe, k.rsrFe, k.rsrPe, k.rsrBe]) :
    k.rsrAny &&& mask = mask := by
  simp only [List.mem_cons, List.not_mem_nil, or_false] at hm
  ext n
  obtain rfl | rfl | rfl | rfl := hm <;> simp +contextual [Cfg.rsrAny]

/-- Bits outside `RSR_ANY` do not count in a test of an error's bit. -/
theorem anySet_and_rsrAny {k : Cfg} {mask : Word} (hm : mask ∈ [k.rsrOe, k.rsrFe, k.rsrPe, k.rsrBe]) (v : Word) :
    anySet (v &&& k.rsrAny) mask = anySet v mask := by
  rw [anySet, BitVec.and_assoc, rsrAny_and hm, anySet]

/-- 40_common R122: the bits outside `RSR_ANY` do not count. -/
theorem decodeRxStatus_and_rsrAny (k : Cfg) (v : Word) : decodeRxStatus k (v &&& k.rsrAny) = decodeRxStatus k v := by
  simp [decodeRxStatus, anySet_and_rsrAny]

/-- Settles O14: the first set bit in the order of the tests decides; with none set, no bit of `RSR_ANY` is. -/
theorem statusDecodePriority : Obligations.StatusDecodePriority := by
  intro k v
  rw [decodeRxStatus_and_rsrAny, anySet_rsrAny]
  unfold decodeRxStatus
  cases anySet v k.rsrOe with
  | true => simp
  | false =>
    cases anySet v k.rsrFe with
    | true => simp
    | false =>
      cases anySet v k.rsrPe with
      | true => simp
      | false => cases anySet v k.rsrBe <;> simp

/-! ### The deadline test -/

/-- Settles O15: the difference of the samples is taken modulo `2^32`; no 32-bit number exceeds `0xFFFF_FFFF`. -/
theorem deadlineIsStrictAndModular : Obligations.DeadlineIsStrictAndModular := by
  intro now tStart budget
  constructor
  · rw [deadlinePassed, decide_eq_true_iff, BitVec.toNat_sub, Nat.add_comm]
  · have hlt : (now - tStart).toNat < 2 ^ 32 := (now - tStart).isLt
    rw [deadlinePassed, decide_eq_false_iff_not]
    exact Nat.not_lt.2 (Nat.le_of_lt_succ hlt)

/-! ### How each operation begins -/

theorem initStart_eq (s : State) :
    initStart s = goto .main (if s.latch.arg = 0#32 then .done .invalidParam else .iWCtrl0) s := by
  unfold initStart
  split <;> rfl

theorem maskStart_eq (s : State) :
    maskStart s = goto .main (if s.cfg.imscUpdate = .rmw then .mRImsc else .mWImsc) s := by
  unfold maskStart
  cases s.cfg.imscUpdate <;> rfl

/-- Settles O17: an acceptance fills the latches, and the start of the operation is a move, with `kont` set and the
first byte latched where the table says so. -/
theorem idleContextAccepts : Obligations.IdleContextAccepts := by
  intro s
  refine ⟨fun ⟨hm, hq⟩ => ?_, fun hq => by rw [exec, execIrqHandler, hq]; rfl⟩
  have haccept : ∀ {i start event}, mainEvent i start event s = .next (start (accept i s)) := mainEvent_accept hq hm
  refine ⟨fun baud => ?_, fun c t => ?_, fun t => ?_, fun t => ?_, fun b rest t => ?_, fun t => ?_, fun str t => ?_,
    ?_, ?_, ?_, ?_⟩
  · exact haccept.trans (by rw [initStart_eq]; rfl)
  · exact haccept.trans (by rw [sendCharStart, txStart_eq]; rfl)
  · exact haccept.trans (congrArg _ (rxStart_eq .main _))
  · exact haccept
  · exact haccept.trans (congrArg _ (txStart_eq .main _))
  · exact haccept
  · exact haccept
  · exact haccept.trans (by rw [maskStart_eq]; rfl)
  · exact haccept.trans (by rw [maskStart_eq]; rfl)
  · exact haccept
  · exact haccept

/-! ### A busy block -/

/-- Where the handler runs or another operation is in progress, a main operation makes no event (60 R236, D21). -/
theorem mainEvent_of_not_accepted {i : Instr} {start : State → State} {event : State → Option State} {s : State}
    (h : s.q.busy = true ∨ (s.m.busy = true ∧ running s ≠ some i)) : mainEvent i start event s = .next s := by
  unfold mainEvent
  obtain hq | ⟨hm, hr⟩ := h
  · rw [if_pos hq]
  · rw [if_pos hm, if_neg hr, ite_self]

/-- The meaning of every well-formed main operation has the one shape of R120. -/
theorem exec_eq_mainEvent {i : Instr} (hctx : i.ctx = .main) (hwf : i.wellFormed = true) :
    ∃ start event, ∀ s, exec i s = mainEvent i start event s := by
  cases i with
  | sendString p str t =>
    refine ⟨sendStringStart, sendStringEvent, fun s => ?_⟩
    rw [exec, execSendString, payload_of_wellFormed hwf]
  | irqHandler => cases hctx
  | _ => exact ⟨_, _, fun _ => rfl⟩

/-- Settles O27: the shape of a main operation's meaning decides it, whatever the operation. -/
theorem busyContextAcceptsNothing : Obligations.BusyContextAcceptsNothing := by
  intro s i hctx hwf h
  obtain ⟨start, event, he⟩ := exec_eq_mainEvent hctx hwf
  rw [he, mainEvent_of_not_accepted h]

end Sys2Proof.Machine
end

section
/-! SUPPORT. 40_common section 2: the poll of either sequence on either context (R121, R126), event by event, and polls
that never end: with no deadline (R127), and with a clock that stands still (60 R240). -/

namespace Sys2Proof.Machine

/-! ### The two polls -/

/-- The poll of `SendCharSeq`, which waits for room in the transmit FIFO, and that of `GetCharSeq`, which waits for a
received byte (R121). -/
inductive Poll where
  | tx
  | rx

/-- The micro-state in which the poll takes its first time sample. -/
def Poll.start : Poll → Phase
  | .tx => .tStart
  | .rx => .gStart

/-- The micro-state in which the poll reads the flag. -/
def Poll.flag : Poll → Phase
  | .tx => .tRFlag
  | .rx => .gRFlag

/-- The micro-state in which the poll tests its deadline. -/
def Poll.deadline : Poll → Phase
  | .tx => .tNow
  | .rx => .gNow

/-- The micro-state the poll ends in where the flag reads clear. -/
def Poll.ready : Poll → Phase
  | .tx => .tRRsr
  | .rx => .gRRsr

/-- The flag bit that is set while the FIFO is not ready. -/
def Poll.mask : Poll → Cfg → Word
  | .tx, k => k.flagTxff
  | .rx, k => k.flagRxfe

/-- The micro-states of the sequence the poll begins. -/
def Poll.phases : Poll → List Phase
  | .tx => sendPhases
  | .rx => getPhases

/-- The events of the sequence the poll begins. -/
def Poll.event : Poll → Ctx → State → Option State
  | .tx => sendEvent
  | .rx => getEvent

/-- The codes of the main operations that run the sequence. -/
def Poll.ops : Poll → List Code
  | .tx => [2#4, 4#4]
  | .rx => [3#4]

/-- It is the turn of context `c`, and the operation in progress there is `i`, which runs the sequence of the poll. -/
def Poll.ranBy (P : Poll) : Ctx → Instr → State → Prop
  | .main, i, s => s.q.busy = false ∧ s.m.busy = true ∧ running s = some i ∧ i.op ∈ P.ops
  | .irq, i, s => s.q.busy = true ∧ i = .irqHandler

theorem Poll.start_mem (P : Poll) : P.start ∈ P.phases := by cases P <;> decide
theorem Poll.flag_mem (P : Poll) : P.flag ∈ P.phases := by cases P <;> decide
theorem Poll.deadline_mem (P : Poll) : P.deadline ∈ P.phases := by cases P <;> decide

/-! ### An event of the sequence is an event of the operation that runs it -/

theorem sendCharEvent_eq_sendEvent {s : State} (hp : s.m.phase ∈ sendPhases) : sendCharEvent s = sendEvent .main s := by
  unfold sendCharEvent
  split
  · simp_all [sendPhases]
  · rfl

theorem getCharEvent_eq_getEvent {s : State} (hp : s.m.phase ∈ getPhases) : getCharEvent s = getEvent .main s := by
  unfold getCharEvent
  split
  · simp_all [getPhases]
  · rfl

/-- The two sequences have no micro-state in common. -/
theorem getEvent_eq_none {c : Ctx} {s : State} (hp : (s.seq c).phase ∈ sendPhases) : getEvent c s = none := by
  unfold getEvent
  split <;> simp_all [sendPhases]

theorem handlerEvent_of_poll {P : Poll} {s t : State} (hp : s.q.phase ∈ P.phases) (he : P.event .irq s = some t) :
    handlerEvent s = some t := by
  unfold handlerEvent
  split
  case h_4 =>
    cases P with
    | tx => rw [getEvent_eq_none (c := .irq) hp]; exact he
    | rx => rw [show getEvent .irq s = some t from he]
  all_goals cases P <;> simp_all [Poll.phases, sendPhases, getPhases]

/-- Where its next event is one of the sequence, the operation makes that event. -/
theorem exec_of_poll {P : Poll} {c : Ctx} {i : Instr} {s t : State} (hran : P.ranBy c i s)
    (hp : (s.seq c).phase ∈ P.phases) (he : P.event c s = some t) : exec i s = .next t := by
  cases c with
  | irq =>
    obtain ⟨hq, rfl⟩ := hran
    rw [exec, execIrqHandler, if_pos hq, handlerEvent_of_poll hp he]
  | main =>
    obtain ⟨hq, hm, hr, hop⟩ := hran
    obtain ⟨-, hwf⟩ := running_main hr
    cases P with
    | rx =>
      have he' := (getCharEvent_eq_getEvent hp).trans he
      cases i with
      | getChar p t => exact mainEvent_event hq hm hr he'
      | _ => simp [Poll.ops, Instr.op] at hop
    | tx =>
      have he' := (sendCharEvent_eq_sendEvent hp).trans he
      cases i with
      | sendChar ch t => exact mainEvent_event hq hm hr he'
      | sendString p str t =>
        rw [exec, execSendString, payload_of_wellFormed hwf]
        exact mainEvent_event hq hm hr he'
      | _ => simp [Poll.ops, Instr.op] at hop

/-! ### What a poll changes -/

/-- The state in which context `c` has the registers `x`, the events `es` have happened, and these answers are left. -/
def State.polled (c : Ctx) (x : Seq) (es : List Event) (bus clock : List Word) (s : State) : State :=
  { s.setSeq c x with history := s.history ++ es, busAnswers := bus, clockAnswers := clock }

section
variable (c : Ctx) (x y : Seq) (es fs : List Event) (bus bus' clock clock' : List Word) (s : State)

@[simp] theorem polled_cfg : (s.polled c x es bus clock).cfg = s.cfg := by cases c <;> rfl
@[simp] theorem polled_seq : (s.polled c x es bus clock).seq c = x := by cases c <;> rfl
@[simp] theorem polled_budget : budget c (s.polled c x es bus clock) = budget c s := by cases c <;> rfl
@[simp] theorem polled_busAnswers : (s.polled c x es bus clock).busAnswers = bus := rfl
@[simp] theorem polled_clockAnswers : (s.polled c x es bus clock).clockAnswers = clock := rfl

theorem polled_polled :
    (s.polled c x es bus clock).polled c y fs bus' clock' = s.polled c y (es ++ fs) bus' clock' := by
  cases c <;> simp [State.polled, State.setSeq]

variable {c x bus clock s}

/-- Where nothing has happened, nothing has changed. -/
theorem polled_self (hbus : s.busAnswers = bus) (hclock : s.clockAnswers = clock) :
    s.polled c (s.seq c) [] bus clock = s := by
  cases c <;> simp [State.polled, State.setSeq, ← hbus, ← hclock]

theorem Poll.ranBy.polled {P : Poll} {i : Instr} (hx : x.busy = (s.seq c).busy) (hran : P.ranBy c i s) :
    P.ranBy c i (s.polled c x es bus clock) := by
  cases c with
  | main =>
    obtain ⟨hq, hm, hr, hop⟩ := hran
    exact ⟨hq, hx.trans hm, hr, hop⟩
  | irq =>
    obtain ⟨hq, hi⟩ := hran
    exact ⟨hx.trans hq, hi⟩
end

/-! ### The events of a poll -/

section
variable {P : Poll} {c : Ctx} {i : Instr} {s : State} (hran : P.ranBy c i s)
include hran

/-- `T_START` and `G_START` (R126). -/
theorem exec_poll_start (hp : (s.seq c).phase = P.start) :
    exec i s = .next (s.polled c { s.seq c with tStart := clockAnswer c s, phase := P.flag }
      [.now c (clockAnswer c s)] s.busAnswers s.clockAnswers.tail) := by
  refine exec_of_poll hran (hp ▸ P.start_mem) ?_
  cases P <;> cases c <;> simp only [Poll.event, sendEvent, getEvent, hp, Poll.start] <;> rfl

/-- `T_R_FLAG` and `G_R_FLAG` (R126). -/
theorem exec_poll_flag (hp : (s.seq c).phase = P.flag) :
    exec i s = .next (s.polled c
      { s.seq c with
        tmp := busAnswer c .flag s
        phase := if busAnswer c .flag s &&& P.mask s.cfg = 0#32 then P.ready
          else if budget c s = 0#32 then P.flag else P.deadline }
      [.read c (Cfg.addr s.cfg .flag) (busAnswer c .flag s)] s.busAnswers.tail s.clockAnswers) := by
  refine exec_of_poll hran (hp ▸ P.flag_mem) ?_
  simp only [← anySet_eq_false_iff, ← Bool.not_eq_true, ite_not]
  cases P <;> cases c <;> simp only [Poll.event, sendEvent, getEvent, hp, Poll.flag, pollFlag_eq] <;> rfl

/-- `T_NOW` and `G_NOW` within the budget (R126). -/
theorem exec_poll_deadline (hp : (s.seq c).phase = P.deadline)
    (hd : deadlinePassed (clockAnswer c s) (s.seq c).tStart (budget c s) = false) :
    exec i s = .next (s.polled c { s.seq c with phase := P.flag }
      [.now c (clockAnswer c s)] s.busAnswers s.clockAnswers.tail) := by
  refine exec_of_poll hran (hp ▸ P.deadline_mem) ?_
  cases P <;> cases c <;> simp only [Poll.event, sendEvent, getEvent, hp, hd, Poll.deadline] <;> rfl

end

/-- `T_R_RSR` where no error is recorded (R126). -/
theorem exec_cleanStatus {c : Ctx} {i : Instr} {s : State} (hran : Poll.tx.ranBy c i s)
    (hp : (s.seq c).phase = .tRRsr) (hv : busAnswer c .rsrEcr s &&& s.cfg.rsrAny = 0#32) :
    exec i s = .next (s.polled c { s.seq c with tmp := busAnswer c .rsrEcr s, phase := .tWData }
      [.read c (Cfg.addr s.cfg .rsrEcr) (busAnswer c .rsrEcr s)] s.busAnswers.tail s.clockAnswers) := by
  have hclean := anySet_eq_false_iff.2 hv
  refine exec_of_poll hran (by rw [hp]; decide) ?_
  cases c <;> simp only [Poll.event, sendEvent, hp] <;> exact if_neg (Bool.eq_false_iff.1 hclean)

/-- What a character to be sent with the budget `t` says of the latches. -/
theorem running_sends {s : State} {i : Instr} {t : Word} (hr : running s = some i)
    (hi : (∃ c, i = .sendChar c t) ∨ (∃ str, i = .sendString true str t)) : i.op ∈ Poll.tx.ops ∧ s.latch.arg = t := by
  obtain ⟨-, -, hchar, -, hstring⟩ := running_latch hr
  obtain ⟨ch, rfl⟩ | ⟨str, rfl⟩ := hi
  · exact ⟨by simp [Poll.ops, Instr.op], (hchar ch t rfl).2⟩
  · exact ⟨by simp [Poll.ops, Instr.op], (hstring str t rfl).2.2⟩

/-- Settles O19: the rows of the transmit poll, in the main context. -/
theorem sendPollEventsFollowTable : Obligations.SendPollEventsFollowTable := by
  intro s i t hq hm hr hi
  obtain ⟨hop, rfl⟩ := running_sends hr hi
  have hran : Poll.tx.ranBy .main i s := ⟨hq, hm, hr, hop⟩
  refine ⟨?_, ?_, ?_, ?_⟩
  · rintro hp _ rfl
    exact exec_poll_start hran hp
  · rintro hp _ rfl
    exact exec_poll_flag hran hp
  · rintro hp _ rfl hle
    exact exec_poll_deadline hran hp (decide_eq_false (Nat.not_lt.2 hle))
  · rintro hp _ rfl hv
    exact exec_cleanStatus hran hp hv

/-! ### Polls that never end -/

theorem execN_succ {i : Instr} {s t : State} (h : exec i s = .next t) (n : Nat) :
    execN i (n + 1) s = execN i n t := by
  rw [execN, h]

theorem busAnswer_of_cons {c : Ctx} {r : Reg} {s : State} {v : Word} {bus : List Word} (h : s.busAnswers = v :: bus) :
    busAnswer c r s = v := by
  rw [busAnswer, h]

theorem clockAnswer_of_cons {c : Ctx} {s : State} {now : Word} {clock : List Word} (h : s.clockAnswers = now :: clock) :
    clockAnswer c s = now := by
  rw [clockAnswer, h]

theorem deadlinePassed_self {now budget : Word} : deadlinePassed now now budget = false := by simp [deadlinePassed]

/-- A flag that reads set ends no poll (R121). -/
theorem exec_poll_flag_set {P : Poll} {c : Ctx} {i : Instr} {s : State} {v : Word} {bus : List Word}
    (hran : P.ranBy c i s) (hp : (s.seq c).phase = P.flag) (hbus : s.busAnswers = v :: bus)
    (hv : anySet v (P.mask s.cfg) = true) :
    ∃ x : Seq, x.busy = (s.seq c).busy ∧ x.tStart = (s.seq c).tStart
      ∧ x.phase = (if budget c s = 0#32 then P.flag else P.deadline)
      ∧ exec i s = .next (s.polled c x [.read c (Cfg.addr s.cfg .flag) v] bus s.clockAnswers) := by
  have hset : ¬v &&& P.mask s.cfg = 0#32 := fun h => by simp [anySet_eq_false_iff.2 h] at hv
  have hread := exec_poll_flag hran hp
  rw [busAnswer_of_cons hbus, hbus, if_neg hset, List.tail_cons] at hread
  refine ⟨_, ?_, ?_, ?_, hread⟩ <;> rfl

/-- With no deadline a poll reads the flag as often as it reads set, and does nothing else (R121, R127). -/
theorem poll_without_deadline {P : Poll} {c : Ctx} {i : Instr} {answers : List Word} {s : State} (hran : P.ranBy c i s)
    (hp : (s.seq c).phase = P.flag) (hb : budget c s = 0#32) (hbus : s.busAnswers = answers)
    (hset : ∀ v ∈ answers, anySet v (P.mask s.cfg) = true) :
    ∃ x : Seq, x.busy = (s.seq c).busy ∧ x.phase = P.flag
      ∧ execN i answers.length s = .next (s.polled c x
          (answers.map fun v => .read c (Cfg.addr s.cfg .flag) v) [] s.clockAnswers) := by
  induction answers generalizing s with
  | nil => exact ⟨s.seq c, rfl, hp, congrArg _ (polled_self hbus rfl).symm⟩
  | cons v answers ih =>
    obtain ⟨hv, hset⟩ := List.forall_mem_cons.1 hset
    obtain ⟨x, hxbusy, -, hxphase, hread⟩ := exec_poll_flag_set hran hp hbus hv
    obtain ⟨y, hybusy, hyphase, hrest⟩ :=
      ih (s := s.polled c x [.read c (Cfg.addr s.cfg .flag) v] answers s.clockAnswers)
        (hran.polled _ hxbusy) (by simpa [hb] using hxphase) (by simpa using hb) rfl (by simpa using hset)
    rw [polled_polled, polled_cfg] at hrest
    exact ⟨y, hybusy.trans (by simpa using hxbusy), hyphase, (execN_succ hread _).trans hrest⟩

/-- Settles O34: the acceptance, with the budget 0, and then the poll. -/
theorem pollWithoutDeadlineNeverEnds : Obligations.PollWithoutDeadlineNeverEnds := by
  rintro s c answers ⟨hm, hq⟩ hbus hset
  obtain ⟨hidle, -⟩ := idleContextAccepts s
  obtain ⟨-, haccept, -⟩ := hidle ⟨hm, hq⟩
  obtain ⟨x, hbusy, hphase, hrest⟩ := poll_without_deadline (P := .tx) (c := .main) (i := .sendChar c 0#32)
    (s := { s with
      latch := { op := 2#4, p := false, c := c, arg := 0#32, str := [], idx := 0 }
      m := { s.m with busy := true, kont := some .sendChar, phase := .tRFlag } })
    ⟨hq, rfl, rfl, by simp [Poll.ops, Instr.op]⟩ rfl rfl hbus hset
  exact ⟨_, (execN_succ (haccept c 0#32) _).trans hrest, hbusy, hphase, rfl, rfl, rfl⟩

/-- A flag that reads set and a deadline test at the time of the poll's start lead back to the flag (R121, 60 R240). -/
theorem poll_round_of_stopped_clock {P : Poll} {c : Ctx} {i : Instr} {v : Word} {bus clock : List Word} {s : State}
    (hran : P.ranBy c i s) (hp : (s.seq c).phase = P.flag) (hb : budget c s ≠ 0#32) (hbus : s.busAnswers = v :: bus)
    (hclock : s.clockAnswers = (s.seq c).tStart :: clock) (hv : anySet v (P.mask s.cfg) = true) :
    ∃ (x : Seq) (es : List Event), x.busy = (s.seq c).busy ∧ x.tStart = (s.seq c).tStart ∧ x.phase = P.flag
      ∧ ∀ n, execN i (n + 2) s = execN i n (s.polled c x es bus clock) := by
  obtain ⟨x, hbusy, htime, hphase, hread⟩ := exec_poll_flag_set hran hp hbus hv
  rw [hclock] at hread
  rw [if_neg hb] at hphase
  have hdeadline := exec_poll_deadline
    (hran.polled (bus := bus) (clock := (s.seq c).tStart :: clock) [.read c (Cfg.addr s.cfg .flag) v] hbusy)
    (by rwa [polled_seq]) (by rw [clockAnswer_of_cons rfl, polled_seq, htime]; exact deadlinePassed_self)
  rw [polled_polled, polled_seq] at hdeadline
  refine ⟨_, _, ?_, ?_, ?_, fun n => (execN_succ hread _).trans (execN_succ hdeadline n)⟩
  · exact hbusy
  · exact htime
  · rfl

/-- With a clock that stands still, a poll that began at its time goes on as often as the flag reads set. -/
theorem poll_with_stopped_clock {P : Poll} {c : Ctx} {i : Instr} {answers : List Word} {s : State}
    (hran : P.ranBy c i s) (hp : (s.seq c).phase = P.flag) (hb : budget c s ≠ 0#32) (hbus : s.busAnswers = answers)
    (hclock : s.clockAnswers = List.replicate answers.length (s.seq c).tStart)
    (hset : ∀ v ∈ answers, anySet v (P.mask s.cfg) = true) :
    ∃ (x : Seq) (es : List Event), x.busy = (s.seq c).busy ∧ x.phase = P.flag
      ∧ execN i (2 * answers.length) s = .next (s.polled c x es [] []) := by
  induction answers generalizing s with
  | nil => exact ⟨s.seq c, [], rfl, hp, congrArg _ (polled_self hbus hclock).symm⟩
  | cons v answers ih =>
    obtain ⟨hv, hset⟩ := List.forall_mem_cons.1 hset
    obtain ⟨x, es, hxbusy, hxtime, hxphase, hround⟩ := poll_round_of_stopped_clock hran hp hb hbus hclock hv
    obtain ⟨y, fs, hybusy, hyphase, hrest⟩ :=
      ih (s := s.polled c x es answers (List.replicate answers.length (s.seq c).tStart))
        (hran.polled _ hxbusy) (by simpa using hxphase) (by simpa using hb) rfl (by simp [hxtime]) (by simpa using hset)
    rw [polled_polled] at hrest
    exact ⟨y, _, hybusy.trans (by simpa using hxbusy), hyphase, (hround _).trans hrest⟩

/-- The same from the start of the poll, whose time sample is the clock's first answer. -/
theorem started_poll_with_stopped_clock {P : Poll} {c : Ctx} {i : Instr} {now : Word} {answers : List Word} {s : State}
    (hran : P.ranBy c i s) (hp : (s.seq c).phase = P.start) (hb : budget c s ≠ 0#32) (hbus : s.busAnswers = answers)
    (hclock : s.clockAnswers = List.replicate (answers.length + 1) now)
    (hset : ∀ v ∈ answers, anySet v (P.mask s.cfg) = true) :
    ∃ (x : Seq) (es : List Event), x.busy = (s.seq c).busy ∧ x.phase = P.flag
      ∧ execN i (2 * answers.length + 1) s = .next (s.polled c x es [] []) := by
  have hstart := exec_poll_start hran hp
  rw [clockAnswer_of_cons hclock, hbus, hclock, List.replicate_succ, List.tail_cons] at hstart
  obtain ⟨x, es, hbusy, hphase, hrest⟩ := poll_with_stopped_clock
    (s := s.polled c { s.seq c with tStart := now, phase := P.flag } [.now c now] answers
      (List.replicate answers.length now))
    (hran.polled _ (by rfl)) (by simp) (by simpa using hb) rfl (by simp) (by simpa using hset)
  rw [polled_polled] at hrest
  exact ⟨x, _, by simpa using hbusy, hphase, (execN_succ hstart _).trans hrest⟩

/-- Settles O35: each of the four polls, from its start. -/
theorem pollWithStoppedClockNeverEnds : Obligations.PollWithStoppedClockNeverEnds := by
  intro s now answers hbus hclock
  refine ⟨fun i hq hm hr hb => ⟨fun hop hp hset => ?_, fun hop hp hset => ?_⟩,
    fun hq hb => ⟨fun hp hset => ?_, fun hp hset => ?_⟩⟩
  · obtain ⟨x, es, hbusy, hphase, hrun⟩ := started_poll_with_stopped_clock (P := .tx) (c := .main)
      ⟨hq, hm, hr, by simpa [Poll.ops] using hop⟩ hp hb hbus hclock hset
    exact ⟨_, hrun, hbusy.trans hm, hphase, rfl, rfl, rfl, rfl, rfl⟩
  · obtain ⟨x, es, hbusy, hphase, hrun⟩ := started_poll_with_stopped_clock (P := .rx) (c := .main)
      ⟨hq, hm, hr, by simpa [Poll.ops] using hop⟩ hp hb hbus hclock hset
    exact ⟨_, hrun, hbusy.trans hm, hphase, rfl, rfl, rfl, rfl, rfl, rfl⟩
  · obtain ⟨x, es, hbusy, hphase, hrun⟩ := started_poll_with_stopped_clock (P := .tx) (c := .irq)
      ⟨hq, rfl⟩ hp hb hbus hclock hset
    exact ⟨_, hrun, hbusy.trans hq, hphase, rfl, rfl⟩
  · obtain ⟨x, es, hbusy, hphase, hrun⟩ := started_poll_with_stopped_clock (P := .rx) (c := .irq)
      ⟨hq, rfl⟩ hp hb hbus hclock hset
    exact ⟨_, hrun, hbusy.trans hq, hphase, rfl, rfl⟩

end Sys2Proof.Machine
end

section
/-! SUPPORT. 41_init: `INIT` event by event (R140 to R142, 40_common R126), as runs with its pseudocode's outcome
(R140, R145), and what it touches and leaves alone (R144). -/

namespace Sys2Proof.Machine

/-! ### The baud divisor -/

/-- R142: the integer part of the divisor, in units of 64. -/
theorem ibrdValue_eq (k : Cfg) (baud : Word) : ibrdValue k baud = BitVec.ofNat 32 (divisor k baud / 64) := by
  rw [ibrdValue, Nat.shiftRight_eq_div_pow]

/-- R142: the fraction of the divisor, in 64ths. -/
theorem fbrdValue_eq (k : Cfg) (baud : Word) : fbrdValue k baud = BitVec.ofNat 32 (divisor k baud % 64) := by
  rw [fbrdValue, Nat.and_two_pow_sub_one_eq_mod _ 6]

/-- 00_scope R6: the clock of a legal configuration is a 32-bit number. -/
theorem clockHz_of_wellFormed {k : Cfg} (hk : k.wellFormed = true) : k.clockHz < 2 ^ 32 := by
  simp only [Cfg.wellFormed, Bool.and_eq_true, decide_eq_true_eq, and_assoc] at hk
  obtain ⟨-, -, -, hclock, -⟩ := hk
  exact hclock

/-- The product is at least 16 where the baud rate is not zero. -/
theorem divisor_lt {k : Cfg} {baud : Word} (hk : k.clockHz < 2 ^ 32) (hb : baud ≠ 0#32) : divisor k baud < 2 ^ 28 := by
  have hpos := BitVec.toNat_pos_of_ne_zero hb
  rw [divisor, Nat.div_lt_iff_lt_mul (by omega)]
  omega

/-- 40_common R124(a): the division is exact over the natural numbers. -/
theorem divisor_eq_zero_iff {k : Cfg} {baud : Word} (hb : baud ≠ 0#32) :
    divisor k baud = 0 ↔ k.clockHz < 16 * baud.toNat := by
  have hpos := BitVec.toNat_pos_of_ne_zero hb
  rw [divisor, Nat.div_eq_zero_iff]
  omega

/-- Settles O16: the two parts are the quotient and the remainder by 64, and both fit in 32 bits. -/
theorem divisorSplitsExactly : Obligations.DivisorSplitsExactly := by
  intro k baud hk hb
  have hlt := divisor_lt (clockHz_of_wellFormed hk) hb
  refine ⟨rfl, hlt, ?_, fbrdValue_lt k baud, divisor_eq_zero_iff hb⟩
  rw [ibrdValue_eq, fbrdValue_eq, BitVec.toNat_ofNat, BitVec.toNat_ofNat]
  omega

/-! ### The events of a running `INIT` -/

/-- `INIT baud` is in progress, and nothing preempts it (60 R236). -/
def initRuns (baud : Word) (s : State) : Prop := s.q.busy = false ∧ s.m.busy = true ∧ running s = some (.init baud)

/-- The state in which the main context is in micro-state `p`, the ghosts are `d` and `o`, and the events `es` have
happened. -/
def State.initAt (p : Phase) (d : DevState) (o : Option OpCfg) (es : List Event) (s : State) : State :=
  { s with m := { s.m with phase := p }, devState := d, opCfg := o, history := s.history ++ es }

theorem initAt_initAt (p p' : Phase) (d d' : DevState) (o o' : Option OpCfg) (es es' : List Event) (s : State) :
    (s.initAt p d o es).initAt p' d' o' es' = s.initAt p' d' o' (es ++ es') := by
  simp [State.initAt]

theorem initRuns.initAt {baud : Word} {s : State} (hrun : initRuns baud s) (p : Phase) (d : DevState)
    (o : Option OpCfg) (es : List Event) : initRuns baud (s.initAt p d o es) := hrun

/-- The code a read-back of `CTRL` gives (R140 step 7). -/
def readBackCode (k : Cfg) (v : Word) : ErrorStatus := if anySet v k.ctrlEn then .ok else .initFailed

/-- The logical device state after a read-back of `CTRL` (R141). -/
def readBackState (k : Cfg) (v : Word) : DevState := if anySet v k.ctrlEn then .enabled else .disabled

section
variable {baud : Word} {s : State} (hrun : initRuns baud s)
include hrun

theorem initRuns.arg : s.latch.arg = baud := by
  obtain ⟨-, -, hr⟩ := hrun
  obtain ⟨-, harg, -⟩ := running_latch hr
  exact harg baud rfl

theorem exec_of_initEvent {t : State} (he : initEvent s = some t) : exec (.init baud) s = .next t := by
  obtain ⟨hq, hm, hr⟩ := hrun
  exact mainEvent_event hq hm hr he

/-- Step 2 of R140. -/
theorem exec_iWCtrl0 (hp : s.m.phase = .iWCtrl0) :
    exec (.init baud) s =
      .next (s.initAt .iWIcr .configuring s.opCfg [.write .main (Cfg.addr s.cfg .ctrl) 0#32]) :=
  exec_of_initEvent hrun (by rw [initEvent, hp]; rfl)

/-- Step 3, and step 4 where the divisor is zero. -/
theorem exec_iWIcr_of_zero (hp : s.m.phase = .iWIcr) (hD : divisor s.cfg baud = 0) :
    exec (.init baud) s =
      .next (s.initAt (.done .invalidParam) .disabled s.opCfg
        [.write .main (Cfg.addr s.cfg .icr) Word.allOnes]) := by
  refine exec_of_initEvent hrun ?_
  simp only [initEvent, hp, hrun.arg, hD]
  rfl

/-- Step 3, and step 4 where the divisor is not zero. -/
theorem exec_iWIcr_of_ne_zero (hp : s.m.phase = .iWIcr) (hD : divisor s.cfg baud ≠ 0) :
    exec (.init baud) s =
      .next (s.initAt .iWIbrd s.devState (some (opCfgOf s.cfg baud))
        [.write .main (Cfg.addr s.cfg .icr) Word.allOnes]) := by
  refine exec_of_initEvent hrun ?_
  simp only [initEvent, hp, hrun.arg, if_neg hD]
  rfl

/-- Step 4, the write of the integer part. -/
theorem exec_iWIbrd (hp : s.m.phase = .iWIbrd) :
    exec (.init baud) s =
      .next (s.initAt .iWFbrd s.devState s.opCfg [.write .main (Cfg.addr s.cfg .ibrd) (ibrdValue s.cfg baud)]) := by
  refine exec_of_initEvent hrun ?_
  simp only [initEvent, hp, hrun.arg]
  rfl

/-- Step 4, the write of the fraction. -/
theorem exec_iWFbrd (hp : s.m.phase = .iWFbrd) :
    exec (.init baud) s =
      .next (s.initAt .iWLcr s.devState s.opCfg [.write .main (Cfg.addr s.cfg .fbrd) (fbrdValue s.cfg baud)]) := by
  refine exec_of_initEvent hrun ?_
  simp only [initEvent, hp, hrun.arg]
  rfl

/-- Step 5. -/
theorem exec_iWLcr (hp : s.m.phase = .iWLcr) :
    exec (.init baud) s =
      .next (s.initAt .iWCtrlEn s.devState s.opCfg [.write .main (Cfg.addr s.cfg .lcr) s.cfg.lcr8n1]) :=
  exec_of_initEvent hrun (by rw [initEvent, hp]; rfl)

/-- Step 6. -/
theorem exec_iWCtrlEn (hp : s.m.phase = .iWCtrlEn) :
    exec (.init baud) s =
      .next (s.initAt .iRCtrl s.devState s.opCfg [.write .main (Cfg.addr s.cfg .ctrl) (ctrlEnabling s.cfg)]) :=
  exec_of_initEvent hrun (by rw [initEvent, hp]; rfl)

/-- Step 7. -/
theorem exec_iRCtrl (hp : s.m.phase = .iRCtrl) :
    exec (.init baud) s =
      .next (goto .main (.done (readBackCode s.cfg (busAnswer .main .ctrl s)))
        { readReg .main .ctrl s with devState := readBackState s.cfg (busAnswer .main .ctrl s) }) := by
  refine exec_of_initEvent hrun ?_
  simp only [initEvent, hp, readReg_main_m, readBackCode, readBackState]
  split <;> rfl

end

/-- Settles O18: the rows of `INIT`, the last by whether the enable bit reads back set. -/
theorem initEventsFollowTable : Obligations.InitEventsFollowTable := by
  intro s baud hq hm hr
  have hrun : initRuns baud s := ⟨hq, hm, hr⟩
  have hibrd := ibrdValue_eq s.cfg baud
  have hfbrd := fbrdValue_eq s.cfg baud
  refine ⟨exec_iWCtrl0 hrun, exec_iWIcr_of_zero hrun, fun hp hD => ?_, fun hp => ?_, fun hp => ?_, exec_iWLcr hrun,
    exec_iWCtrlEn hrun, ?_⟩
  · rw [exec_iWIcr_of_ne_zero hrun hp hD, opCfgOf, hibrd, hfbrd]; rfl
  · rw [exec_iWIbrd hrun hp, hibrd]; rfl
  · rw [exec_iWFbrd hrun hp, hfbrd]; rfl
  · rintro hp _ rfl
    rw [exec_iRCtrl hrun hp]
    simp only [← anySet_eq_false_iff, readBackCode, readBackState]
    cases anySet (busAnswer .main .ctrl s) s.cfg.ctrlEn <;> rfl

/-! ### Whole runs -/

/-- One more event at the end of a run. -/
theorem execN_snoc {i : Instr} {n : Nat} {s u t : State} (hrun : execN i n s = .next u) (he : exec i u = .next t) :
    execN i (n + 1) s = .next t := by
  induction n generalizing s with
  | zero => cases hrun; exact execN_succ he 0
  | succ n ih =>
    unfold execN at hrun ⊢
    split at hrun
    · exact ih hrun
    · cases hrun
    · cases hrun

/-- From `s` to `u` an operation has done all the outcome `o` says, but for reporting its completion. -/
def doneAs (s u : State) (o : OpOut) : Prop :=
  u.history = s.history ++ o.events ∧ u.results = s.results ∧ u.outChar = o.outChar.or s.outChar
    ∧ u.devState = o.devState.getD s.devState ∧ u.opCfg = o.opCfg.or s.opCfg
    ∧ u.busAnswers = o.bus ∧ u.clockAnswers = o.clock ∧ u.q = s.q ∧ u.qChar = s.qChar ∧ u.cfg = s.cfg
    ∧ u.turns = s.turns ∧ u.turnCount = s.turnCount ∧ u.port = s.port

/-- A run that has done all of its outcome and is in `DONE` completes in one more event (40_common R120(4)). -/
theorem completesAs_of_doneAs {i : Instr} {n : Nat} {s u : State} {o : OpOut} (hrun : execN i n s = .next u)
    (hq : u.q.busy = false) (hm : u.m.busy = true) (hr : running u = some i) (hp : u.m.phase = .done o.code)
    (ho : completionOf o.code u = ⟨o.code.code, o.outChar⟩) (hd : doneAs s u o) : completesAs i s o := by
  obtain ⟨hhistory, hresults, hrest⟩ := hd
  exact ⟨n + 1, complete o.code u, execN_snoc hrun (exec_of_done hq hm hr hp), rfl, rfl, hhistory, rfl,
    by rw [complete_results, hresults, ho], hrest⟩

/-- The writes of a run of `INIT` up to the read-back (R140 steps 2 to 6). -/
def initWrites (k : Cfg) (baud : Word) : List Event :=
  [.write .main (Cfg.addr k .ctrl) 0#32, .write .main (Cfg.addr k .icr) Word.allOnes,
    .write .main (Cfg.addr k .ibrd) (ibrdValue k baud), .write .main (Cfg.addr k .fbrd) (fbrdValue k baud),
    .write .main (Cfg.addr k .lcr) k.lcr8n1, .write .main (Cfg.addr k .ctrl) (ctrlEnabling k)]

/-- Just after an accepted `INIT` has begun at the micro-state `p`. -/
def State.initAccepted (baud : Word) (p : Phase) (s : State) : State := goto .main p (accept (.init baud) s)

/-- Just before the read-back: the writes are done and the configuration is recorded. -/
def State.initWritten (baud : Word) (s : State) : State :=
  (s.initAccepted baud .iWCtrl0).initAt .iRCtrl .configuring (some (opCfgOf s.cfg baud)) (initWrites s.cfg baud)

/-- Just after the read-back. -/
def State.initReadBack (s : State) : State :=
  goto .main (.done (readBackCode s.cfg (busAnswer .main .ctrl s)))
    { readReg .main .ctrl s with devState := readBackState s.cfg (busAnswer .main .ctrl s) }

/-- The seven transactions of a run of `INIT` that gets to step 7 (R140). -/
theorem initReadBack_history (baud : Word) (s : State) :
    (s.initWritten baud).initReadBack.history = s.history ++
      (initWrites s.cfg baud ++ [.read .main (Cfg.addr s.cfg .ctrl) (busAnswer .main .ctrl (s.initWritten baud))]) := by
  simp [State.initReadBack, State.initWritten, State.initAt, State.initAccepted]

section
variable {baud : Word} {s : State} (hidle : bothIdle s)
include hidle

theorem initRuns_initAccepted (p : Phase) : initRuns baud (s.initAccepted baud p) := ⟨hidle.2, rfl, rfl⟩

/-- Step 1 of R140: the acceptance. -/
theorem exec_init_accept :
    exec (.init baud) s = .next (s.initAccepted baud (if baud = 0#32 then .done .invalidParam else .iWCtrl0)) := by
  obtain ⟨hm, hq⟩ := hidle
  exact (mainEvent_accept hq hm).trans (congrArg _ (initStart_eq _))

/-- Steps 1 to 3, and step 4 where the divisor is zero: two writes, and `op_cfg` is as it was. -/
theorem execN_init_rejected (hb : baud ≠ 0#32) (hD : divisor s.cfg baud = 0) :
    execN (.init baud) 3 s =
      .next ((s.initAccepted baud .iWCtrl0).initAt (.done .invalidParam) .disabled s.opCfg
        [.write .main (Cfg.addr s.cfg .ctrl) 0#32, .write .main (Cfg.addr s.cfg .icr) Word.allOnes]) := by
  have hrun := initRuns_initAccepted (baud := baud) hidle .iWCtrl0
  rw [execN_succ (exec_init_accept hidle), if_neg hb, execN_succ (exec_iWCtrl0 hrun rfl),
    execN_succ (exec_iWIcr_of_zero (hrun.initAt ..) rfl hD), initAt_initAt]
  rfl

/-- Steps 1 to 6. -/
theorem execN_init_written (hb : baud ≠ 0#32) (hD : divisor s.cfg baud ≠ 0) :
    execN (.init baud) 7 s = .next (s.initWritten baud) := by
  have hrun := initRuns_initAccepted (baud := baud) hidle .iWCtrl0
  rw [execN_succ (exec_init_accept hidle), if_neg hb, execN_succ (exec_iWCtrl0 hrun rfl),
    execN_succ (exec_iWIcr_of_ne_zero (hrun.initAt ..) rfl hD), initAt_initAt,
    execN_succ (exec_iWIbrd (hrun.initAt ..) rfl), initAt_initAt,
    execN_succ (exec_iWFbrd (hrun.initAt ..) rfl), initAt_initAt,
    execN_succ (exec_iWLcr (hrun.initAt ..) rfl), initAt_initAt,
    execN_succ (exec_iWCtrlEn (hrun.initAt ..) rfl), initAt_initAt]
  rfl

/-- Steps 1 to 7. -/
theorem execN_init_readBack (hb : baud ≠ 0#32) (hD : divisor s.cfg baud ≠ 0) :
    execN (.init baud) 8 s = .next (s.initWritten baud).initReadBack :=
  execN_snoc (execN_init_written hidle hb hD) (exec_iRCtrl ((initRuns_initAccepted hidle .iWCtrl0).initAt ..) rfl)

end

/-- How the pseudocode of `INIT` ends: step 1 exit, step 4 exit, or step 7 (R140). -/
theorem initSpec_eq_some {k : Cfg} {baud : Word} {bus clock : List Word} {o : OpOut}
    (h : initSpec k baud bus clock = some o) :
    (baud = 0#32 ∧ o = ⟨.invalidParam, none, none, none, [], bus, clock⟩)
      ∨ (baud ≠ 0#32 ∧ divisor k baud = 0
          ∧ o = ⟨.invalidParam, none, some .disabled, none,
            [.write .main (Cfg.addr k .ctrl) 0#32, .write .main (Cfg.addr k .icr) Word.allOnes], bus, clock⟩)
      ∨ (baud ≠ 0#32 ∧ divisor k baud ≠ 0 ∧ ∃ v bus', bus = v :: bus'
          ∧ o = ⟨readBackCode k v, none, some (readBackState k v), some (opCfgOf k baud),
            initWrites k baud ++ [.read .main (Cfg.addr k .ctrl) v], bus', clock⟩) := by
  unfold initSpec at h
  split at h
  · cases h; exact .inl ⟨‹_›, rfl⟩
  · split at h
    · cases h; exact .inr (.inl ⟨‹_›, ‹_›, rfl⟩)
    · cases bus with
      | nil => cases h
      | cons v bus' =>
        refine .inr (.inr ⟨‹_›, ‹_›, v, bus', rfl, ?_⟩)
        cases hv : anySet v k.ctrlEn <;> simp only [hv] at h <;> cases h <;>
          simp only [readBackCode, readBackState, hv] <;> rfl

/-- Settles O28: each exit of the pseudocode is a run that ends in `DONE`. -/
theorem initRunsItsPseudocode : Obligations.InitRunsItsPseudocode := by
  intro s baud o hidle h
  have ⟨_, hq⟩ := hidle
  obtain ⟨rfl, rfl⟩ | ⟨hb, hD, rfl⟩ | ⟨hb, hD, v, bus', hbus, rfl⟩ := initSpec_eq_some h
  · exact completesAs_of_doneAs (execN_succ (exec_init_accept hidle) 0) hq rfl rfl rfl rfl
      (by simp [doneAs, State.initAccepted])
  · exact completesAs_of_doneAs (execN_init_rejected hidle hb hD) hq rfl rfl rfl rfl
      (by simp [doneAs, State.initAt, State.initAccepted])
  · have hv : busAnswer .main .ctrl (s.initWritten baud) = v := busAnswer_of_cons hbus
    subst hv
    exact completesAs_of_doneAs (execN_init_readBack hidle hb hD) hq rfl rfl rfl rfl
      ⟨initReadBack_history baud s, rfl, rfl, rfl, rfl, congrArg List.tail hbus, by and_intros <;> rfl⟩

/-- Settles O57: the divisor is at least 1, and the read-back, the last observed event, has the enable bit set. -/
theorem initSucceedsWhenResponsive : Obligations.InitSucceedsWhenResponsive := by
  intro s t os hidle hclock _ hrun hobserved hresponsive
  have hb : 115200#32 ≠ 0#32 := by decide
  have hD : divisor s.cfg 115200#32 ≠ 0 := by
    rw [Ne, divisor_eq_zero_iff hb]
    exact Nat.not_lt.2 hclock
  have ⟨_, hq⟩ := hidle
  have hdone := execN_snoc (execN_init_readBack hidle hb hD) (exec_of_done hq rfl rfl rfl)
  cases hrun.symm.trans hdone
  have hevents : os.map Observed.event = initWrites s.cfg 115200#32 ++ [.read .main (Cfg.addr s.cfg .ctrl) _] :=
    List.append_cancel_left (hobserved.symm.trans (initReadBack_history _ s))
  obtain ⟨o, ho, hread⟩ := List.mem_map.1 (hevents ▸ List.mem_append_right _ List.mem_cons_self)
  have hv : anySet (busAnswer .main .ctrl (s.initWritten 115200#32)) s.cfg.ctrlEn = true := hresponsive o ho _ _ hread
  have hcode : readBackCode s.cfg (busAnswer .main .ctrl (s.initWritten 115200#32)) = .ok := if_pos hv
  exact ⟨rfl, congrArg (fun e : ErrorStatus => some e.code) hcode, if_pos hv⟩

/-! ### What an event of `INIT` touches and leaves alone -/

/-- From `s` to `t` the history stays as it is, or grows by a write to one of the registers of `INIT`, or by a read of
`CTRL` (R144). -/
def addsOnlyInitEvent (s t : State) : Prop :=
  t.history = s.history
    ∨ (∃ r v, r ∈ [Reg.ctrl, .icr, .ibrd, .fbrd, .lcr] ∧ t.history = s.history ++ [.write .main (Cfg.addr s.cfg r) v])
    ∨ ∃ v, t.history = s.history ++ [.read .main (Cfg.addr s.cfg .ctrl) v]

theorem initEvent_addsOnlyInitEvent {s t : State} (h : initEvent s = some t) : addsOnlyInitEvent s t := by
  obtain ⟨e, -, rfl⟩ | ⟨-, rfl⟩ | ⟨-, -, rfl⟩ | ⟨-, -, rfl⟩ | ⟨-, rfl⟩ | ⟨-, rfl⟩ | ⟨-, rfl⟩ | ⟨-, rfl⟩ | ⟨-, -, rfl⟩
    | ⟨-, -, rfl⟩ := initEvent_next h
  · exact .inl rfl
  · exact .inr (.inl ⟨.ctrl, _, by decide, rfl⟩)
  · exact .inr (.inl ⟨.icr, _, by decide, rfl⟩)
  · exact .inr (.inl ⟨.icr, _, by decide, rfl⟩)
  · exact .inr (.inl ⟨.ibrd, _, by decide, rfl⟩)
  · exact .inr (.inl ⟨.fbrd, _, by decide, rfl⟩)
  · exact .inr (.inl ⟨.lcr, _, by decide, rfl⟩)
  · exact .inr (.inl ⟨.ctrl, _, by decide, rfl⟩)
  · exact .inr (.inr ⟨_, rfl⟩)
  · exact .inr (.inr ⟨_, rfl⟩)

theorem execInit_addsOnlyInitEvent {baud : Word} {s t : State} (h : exec (.init baud) s = .next t) :
    addsOnlyInitEvent s t := by
  obtain ⟨rfl, -⟩ | ⟨-, -, rfl⟩ | ⟨-, -, -, he⟩ := mainEvent_next h
  · exact .inl rfl
  · exact .inl (initStart_history _)
  · exact initEvent_addsOnlyInitEvent he

/-- Settles O49: what the event adds is the one event named. -/
theorem initTouchesNothingElse : Obligations.InitTouchesNothingElse := by
  intro baud s t e h he
  obtain hsame | ⟨r, v, hr, hw⟩ | ⟨v, hread⟩ := execInit_addsOnlyInitEvent h
  · simp [hsame] at he
  · exact .inl ⟨r, v, hr, by simpa [hw] using he.symm⟩
  · exact .inr ⟨v, by simpa [hread] using he.symm⟩

/-- An event of `INIT` leaves `t_start` alone, and reads the bus in the read-back alone. -/
theorem initEvent_scratch {s t : State} (h : initEvent s = some t) :
    t.m.tStart = s.m.tStart ∧ (s.m.phase ≠ .iRCtrl → t.m.tmp = s.m.tmp ∧ t.busAnswers = s.busAnswers) := by
  obtain ⟨e, -, rfl⟩ | ⟨-, rfl⟩ | ⟨-, -, rfl⟩ | ⟨-, -, rfl⟩ | ⟨-, rfl⟩ | ⟨-, rfl⟩ | ⟨-, rfl⟩ | ⟨-, rfl⟩ | ⟨hp, -, rfl⟩
    | ⟨hp, -, rfl⟩ := initEvent_next h
  iterate 8 · exact ⟨rfl, fun _ => ⟨rfl, rfl⟩⟩
  iterate 2 · exact ⟨rfl, fun hne => absurd hp hne⟩

/-- Settles O50: nothing happens, or the operation is accepted, or completes, or makes another event. -/
theorem frameOfInit : Obligations.FrameOfInit := by
  intro baud s t h
  have hhistory : s.history <+: t.history := by
    obtain hsame | ⟨r, v, -, hw⟩ | ⟨v, hread⟩ := execInit_addsOnlyInitEvent h
    · exact hsame ▸ List.prefix_rfl
    · exact hw ▸ List.prefix_append _ _
    · exact hread ▸ List.prefix_append _ _
  obtain ⟨rfl, -⟩ | ⟨-, hm, rfl⟩ | ⟨-, -, -, he⟩ := mainEvent_next h
  · simp
  · simp [initStart_eq, hm]
  · obtain ⟨hstart, hread⟩ := initEvent_scratch he
    obtain ⟨e, hp, rfl⟩ | hkeeps := initEvent_keeps he
    · simp [hp]
    · obtain ⟨hcfg, hq, hqChar, hlatch, -, hkont, hout, hresult, hresults, hclock, hturns, hcount, hport⟩ := hkeeps
      exact ⟨hcfg, hq, hqChar, hout, hstart, fun _ => hlatch, fun _ => hkont, fun _ => ⟨hresult, hresults⟩, hread,
        hclock, hturns, hcount, hport, hhistory⟩

end Sys2Proof.Machine
end

section
/-! SUPPORT. 40_common R121 and 42_send_char R160 as runs: a poll and `SendCharSeq`, on either context and for any number
of flag reads, do what their pseudocode says. -/

namespace Sys2Proof.Machine

/-! ### Runs of any length -/

/-- Some number of events of the operation `i`, nothing preempting it, lead from `s` to `t`. -/
def runs (i : Instr) (s t : State) : Prop := ∃ n, execN i n s = .next t

theorem runs.refl (i : Instr) (s : State) : runs i s s := ⟨0, rfl⟩

theorem runs.head {i : Instr} {s u t : State} (he : exec i s = .next u) (hrun : runs i u t) : runs i s t := by
  obtain ⟨n, hn⟩ := hrun
  exact ⟨n + 1, (execN_succ he n).trans hn⟩

theorem runs.snoc {i : Instr} {s u t : State} (hrun : runs i s u) (he : exec i u = .next t) : runs i s t := by
  obtain ⟨n, hn⟩ := hrun
  exact ⟨n + 1, execN_snoc hn he⟩

/-! ### The oracle's answers one by one -/

section
variable (c : Ctx) (x : Seq) (es : List Event) (bus clock : List Word) (s : State)

theorem sampleNow_polled (now : Word) :
    sampleNow c (s.polled c x es bus (now :: clock)) = s.polled c x (es ++ [.now c now]) bus clock := by
  cases c <;> simp [sampleNow, State.polled, State.setSeq, clockAnswer]

theorem readReg_polled (r : Reg) (v : Word) :
    readReg c r (s.polled c x es (v :: bus) clock) =
      s.polled c { x with tmp := v } (es ++ [.read c (Cfg.addr s.cfg r) v]) bus clock := by
  cases c <;> simp [readReg, State.polled, State.setSeq, busAnswer]

theorem writeReg_polled (r : Reg) (v : Word) :
    writeReg c r v (s.polled c x es bus clock) =
      s.polled c x (es ++ [.write c (Cfg.addr s.cfg r) v]) bus clock := by
  cases c <;> simp [writeReg, State.polled, State.setSeq]

@[simp] theorem polled_txChar : txChar c (s.polled c x es bus clock) = txChar c s := by cases c <;> rfl

end

/-- The registers of a context after its poll has read `v` from `FLAG` (R121). -/
def Poll.afterFlag (P : Poll) (c : Ctx) (v : Word) (s : State) : Seq :=
  { s.seq c with
    tmp := v
    phase := if anySet v (P.mask s.cfg) then if budget c s = 0#32 then P.flag else P.deadline else P.ready }

section
variable {P : Poll} {c : Ctx} {i : Instr} {s : State} (hran : P.ranBy c i s)
include hran

theorem exec_poll_start_of_cons {now : Word} {clock : List Word} (hp : (s.seq c).phase = P.start)
    (hclock : s.clockAnswers = now :: clock) :
    exec i s = .next (s.polled c { s.seq c with tStart := now, phase := P.flag } [.now c now] s.busAnswers clock) := by
  rw [exec_poll_start hran hp, clockAnswer_of_cons hclock, hclock, List.tail_cons]

theorem exec_poll_flag_of_cons {v : Word} {bus : List Word} (hp : (s.seq c).phase = P.flag)
    (hbus : s.busAnswers = v :: bus) :
    exec i s = .next (s.polled c (P.afterFlag c v s) [.read c (Cfg.addr s.cfg .flag) v] bus s.clockAnswers) := by
  rw [exec_poll_flag hran hp, busAnswer_of_cons hbus, hbus, List.tail_cons]
  simp only [← anySet_eq_false_iff, ← Bool.not_eq_true, ite_not]
  rfl

theorem exec_poll_deadline_of_cons {now : Word} {clock : List Word} (hp : (s.seq c).phase = P.deadline)
    (hclock : s.clockAnswers = now :: clock) (hd : deadlinePassed now (s.seq c).tStart (budget c s) = false) :
    exec i s = .next (s.polled c { s.seq c with phase := P.flag } [.now c now] s.busAnswers clock) := by
  have hnow : clockAnswer c s = now := clockAnswer_of_cons hclock
  rw [exec_poll_deadline hran hp (hnow ▸ hd), hnow, hclock, List.tail_cons]

end

/-! ### The poll against its pseudocode -/

/-- How the loop of a poll goes on after the flag reads `v` (R121). -/
theorem pollLoop_cons_eq_some {k : Cfg} {c : Ctx} {mask b tStart v : Word} {bus clock : List Word} {o : PollOut}
    (h : pollLoop k c mask b tStart (v :: bus) clock = some o) :
    (anySet v mask = false ∧ o = ⟨false, [.read c (Cfg.addr k .flag) v], bus, clock⟩)
      ∨ (anySet v mask = true ∧ b = 0#32 ∧ ∃ o', pollLoop k c mask b tStart bus clock = some o'
          ∧ o = { o' with events := .read c (Cfg.addr k .flag) v :: o'.events })
      ∨ (anySet v mask = true ∧ b ≠ 0#32 ∧ ∃ now clock', clock = now :: clock'
          ∧ deadlinePassed now tStart b = true
          ∧ o = ⟨true, [.read c (Cfg.addr k .flag) v, .now c now], bus, clock'⟩)
      ∨ (anySet v mask = true ∧ b ≠ 0#32 ∧ ∃ now clock', clock = now :: clock'
          ∧ deadlinePassed now tStart b = false ∧ ∃ o', pollLoop k c mask b tStart bus clock' = some o'
          ∧ o = { o' with events := .read c (Cfg.addr k .flag) v :: .now c now :: o'.events }) := by
  simp only [pollLoop] at h
  split at h
  · rename_i hv
    split at h
    · rename_i hb
      obtain ⟨o', ho, rfl⟩ := Option.map_eq_some_iff.1 h
      exact .inr (.inl ⟨hv, hb, o', ho, rfl⟩)
    · rename_i hb
      cases clock with
      | nil => cases h
      | cons now clock' =>
        cases hd : deadlinePassed now tStart b with
        | true =>
          simp only [hd, if_true] at h
          cases h
          exact .inr (.inr (.inl ⟨hv, hb, now, clock', rfl, hd, rfl⟩))
        | false =>
          simp only [hd] at h
          obtain ⟨o', ho, rfl⟩ := Option.map_eq_some_iff.1 h
          exact .inr (.inr (.inr ⟨hv, hb, now, clock', rfl, hd, o', ho, rfl⟩))
  · rename_i hv
    cases h
    exact .inl ⟨by simpa using hv, rfl⟩

/-- In `u` context `c` has ended the poll it was at in `s`, with the outcome `o`. The sample that passes the deadline is
still to be taken: the sequence ends in the same event (40_common R126, `TxEnd` and `RxEnd`). -/
def Poll.ended (P : Poll) (c : Ctx) (o : PollOut) (s u : State) : Prop :=
  ∃ x es clock, u = s.polled c x es o.bus clock ∧ x.busy = (s.seq c).busy ∧ x.kont = (s.seq c).kont
    ∧ ((o.timedOut = false ∧ x.phase = P.ready ∧ es = o.events ∧ clock = o.clock)
      ∨ (o.timedOut = true ∧ x.phase = P.deadline ∧ ∃ now, clock = now :: o.clock ∧ o.events = es ++ [.now c now]
          ∧ deadlinePassed now x.tStart (budget c s) = true))

/-- An event of a poll, and then the rest of the poll. -/
theorem Poll.ended.head {P : Poll} {c : Ctx} {i : Instr} {o : PollOut} {x : Seq} {es : List Event}
    {bus clock : List Word} {s : State} (he : exec i s = .next (s.polled c x es bus clock))
    (hbusy : x.busy = (s.seq c).busy) (hkont : x.kont = (s.seq c).kont)
    (hrest : ∃ u, runs i (s.polled c x es bus clock) u ∧ P.ended c o (s.polled c x es bus clock) u) :
    ∃ u, runs i s u ∧ P.ended c { o with events := es ++ o.events } s u := by
  obtain ⟨_, hrun, y, fs, clock', rfl, hybusy, hykont, hend⟩ := hrest
  simp only [polled_seq, polled_budget] at hybusy hykont hend
  refine ⟨_, .head he hrun, y, es ++ fs, clock', polled_polled .., hybusy.trans hbusy, hykont.trans hkont, ?_⟩
  obtain ⟨hto, hp, rfl, rfl⟩ | ⟨hto, hp, now, rfl, hfs, hd⟩ := hend
  · exact .inl ⟨hto, hp, rfl, rfl⟩
  · exact .inr ⟨hto, hp, now, rfl, by simp [hfs], hd⟩

/-- The loop of a poll ends as its pseudocode says, whatever the number of flag reads (R121). -/
theorem pollLoop_runs {P : Poll} {c : Ctx} {i : Instr} {tStart : Word} {bus clock : List Word} {o : PollOut} {s : State}
    (hran : P.ranBy c i s) (hp : (s.seq c).phase = P.flag) (ht : budget c s ≠ 0#32 → (s.seq c).tStart = tStart)
    (hbus : s.busAnswers = bus) (hclock : s.clockAnswers = clock)
    (h : pollLoop s.cfg c (P.mask s.cfg) (budget c s) tStart bus clock = some o) :
    ∃ u, runs i s u ∧ P.ended c o s u := by
  induction bus generalizing s clock o with
  | nil => cases h
  | cons v bus ih =>
    have hread := exec_poll_flag_of_cons hran hp hbus
    have hran' := hran.polled (x := P.afterFlag c v s) (bus := bus) (clock := s.clockAnswers)
      [.read c (Cfg.addr s.cfg .flag) v] rfl
    obtain ⟨hv, rfl⟩ | ⟨hv, hb, o', ho, rfl⟩ | ⟨hv, hb, now, clock', rfl, hd, rfl⟩
      | ⟨hv, hb, now, clock', rfl, hd, o', ho, rfl⟩ := pollLoop_cons_eq_some h
    · exact ⟨_, .head hread (.refl i _), _, _, _, rfl, rfl, rfl, .inl ⟨rfl, by simp [Poll.afterFlag, hv], rfl, hclock⟩⟩
    · exact Poll.ended.head hread rfl rfl
        (ih hran' (by simp [Poll.afterFlag, hv, hb]) (by simp [hb]) rfl hclock (by simpa using ho))
    · exact ⟨_, .head hread (.refl i _), _, _, _, rfl, rfl, rfl,
        .inr ⟨rfl, by simp [Poll.afterFlag, hv, hb], now, hclock, rfl, by rwa [← ht hb] at hd⟩⟩
    · have hinTime := exec_poll_deadline_of_cons hran' (by simp [Poll.afterFlag, hv, hb]) hclock
        (by simpa [Poll.afterFlag, ht hb] using hd)
      exact Poll.ended.head hread rfl rfl (Poll.ended.head hinTime rfl rfl
        (ih (hran'.polled _ rfl) (by simp) (by simpa [Poll.afterFlag] using ht) rfl rfl (by simpa using ho)))

/-- A poll ends as its pseudocode says, the first time sample included (R121). -/
theorem pollSpec_runs {P : Poll} {c : Ctx} {i : Instr} {o : PollOut} {s : State} (hran : P.ranBy c i s)
    (hp : (s.seq c).phase = if budget c s = 0#32 then P.flag else P.start)
    (h : pollSpec s.cfg c (P.mask s.cfg) (budget c s) s.busAnswers s.clockAnswers = some o) :
    ∃ u, runs i s u ∧ P.ended c o s u := by
  unfold pollSpec at h
  split at h
  · rename_i hb
    exact pollLoop_runs hran (by simpa [hb] using hp) (fun hne => absurd hb hne) rfl rfl h
  · rename_i hb
    cases hclock : s.clockAnswers with
    | nil => simp [hclock] at h
    | cons now clock =>
      rw [hclock] at h
      obtain ⟨o', ho, rfl⟩ := Option.map_eq_some_iff.1 h
      have hstart := exec_poll_start_of_cons hran (by simpa [hb] using hp) hclock
      exact Poll.ended.head hstart rfl rfl
        (pollLoop_runs (tStart := now) (hran.polled _ rfl) (by simp) (by simp) rfl rfl (by simpa using ho))

/-! ### The ends of `SendCharSeq` -/

section
variable {c : Ctx} {s : State}

theorem sendEvent_of_late (hp : (s.seq c).phase = .tNow)
    (hd : deadlinePassed (clockAnswer c s) (s.seq c).tStart (budget c s) = true) :
    sendEvent c s = txEnd c .timeout (sampleNow c s) := by
  simp only [sendEvent, hp, hd, if_true]

theorem sendEvent_of_statusError (hp : (s.seq c).phase = .tRRsr)
    (hv : anySet (busAnswer c .rsrEcr s) s.cfg.rsrAny = true) :
    sendEvent c s = txEnd c .hardwareError (readReg c .rsrEcr s) := by
  have htmp : ((readReg c .rsrEcr s).seq c).tmp = busAnswer c .rsrEcr s := by cases c <;> rfl
  simp only [sendEvent, hp, htmp, hv, if_true]

theorem sendEvent_of_tWData (hp : (s.seq c).phase = .tWData) :
    sendEvent c s = txEnd c .ok (writeReg c .data ((txChar c s).setWidth 32) s) := by
  simp only [sendEvent, hp]

end

/-- How the pseudocode of `SendCharSeq` ends: with its poll, with the status check, or with the write (R160). -/
theorem sendSeqSpec_eq_some {k : Cfg} {c : Ctx} {b : Word} {ch : Byte} {bus clock : List Word} {o : SeqOut}
    (h : sendSeqSpec k c b ch bus clock = some o) :
    ∃ p, pollSpec k c k.flagTxff b bus clock = some p
      ∧ ((p.timedOut = true ∧ o = ⟨.timeout, 0#8, p.events, p.bus, p.clock⟩)
        ∨ (p.timedOut = false ∧ ∃ v bus', p.bus = v :: bus' ∧ anySet v k.rsrAny = true
            ∧ o = ⟨.hardwareError, 0#8, p.events ++ [.read c (Cfg.addr k .rsrEcr) v], bus', p.clock⟩)
        ∨ (p.timedOut = false ∧ ∃ v bus', p.bus = v :: bus' ∧ anySet v k.rsrAny = false
            ∧ o = ⟨.ok, 0#8, p.events ++ [.read c (Cfg.addr k .rsrEcr) v]
              ++ [.write c (Cfg.addr k .data) (ch.setWidth 32)], bus', p.clock⟩)) := by
  unfold sendSeqSpec at h
  split at h
  · cases h
  · rename_i p hpoll
    refine ⟨p, hpoll, ?_⟩
    split at h
    · rename_i hto
      cases h
      exact .inl ⟨hto, rfl⟩
    · rename_i hto
      have hto : p.timedOut = false := by simpa using hto
      split at h
      · cases h
      · rename_i v bus' hbus
        simp only at h
        split at h
        · rename_i hv
          cases h
          exact .inr (.inl ⟨hto, v, bus', hbus, hv, rfl⟩)
        · rename_i hv
          cases h
          exact .inr (.inr ⟨hto, v, bus', hbus, by simpa using hv, rfl⟩)

/-- `SendCharSeq` ends as its pseudocode says: the run leads to whatever `TxEnd` makes of the code and of the state in
which the sequence's events have happened (R160, 40_common R126). -/
theorem sendSeqSpec_runs {c : Ctx} {i : Instr} {o : SeqOut} {s : State} (hran : Poll.tx.ranBy c i s)
    (hp : (s.seq c).phase = if budget c s = 0#32 then .tRFlag else .tStart)
    (h : sendSeqSpec s.cfg c (budget c s) (txChar c s) s.busAnswers s.clockAnswers = some o) :
    ∃ x : Seq, x.busy = (s.seq c).busy ∧ x.kont = (s.seq c).kont
      ∧ ∀ t, txEnd c o.code (s.polled c x o.events o.bus o.clock) = some t → runs i s t := by
  obtain ⟨⟨timedOut, events, bus, clock⟩, hpoll, hends⟩ := sendSeqSpec_eq_some h
  obtain ⟨u, hrun, x, es, clock', rfl, hbusy, hkont, hpe⟩ := pollSpec_runs hran hp hpoll
  have hran' := fun bus => hran.polled (bus := bus) (clock := clock') es hbusy
  obtain ⟨rfl, rfl⟩ | ⟨rfl, v, bus', rfl, hv, rfl⟩ | ⟨rfl, v, bus', rfl, hv, rfl⟩ := hends
  · obtain ⟨⟨⟩, -⟩ | ⟨-, hphase, now, rfl, rfl, hd⟩ := hpe
    refine ⟨x, hbusy, hkont, fun t ht => hrun.snoc (exec_of_poll (hran' _) (by rw [polled_seq, hphase]; decide) ?_)⟩
    rw [Poll.event, sendEvent_of_late (by rwa [polled_seq])
      (by rw [clockAnswer_of_cons rfl, polled_seq, polled_budget]; exact hd), sampleNow_polled]
    exact ht
  · obtain ⟨-, hphase, rfl, rfl⟩ | ⟨⟨⟩, -⟩ := hpe
    refine ⟨{ x with tmp := v }, hbusy, hkont,
      fun t ht => hrun.snoc (exec_of_poll (hran' _) (by rw [polled_seq, hphase]; decide) ?_)⟩
    rw [Poll.event, sendEvent_of_statusError (by rwa [polled_seq])
      (by rw [busAnswer_of_cons rfl, polled_cfg]; exact hv), readReg_polled]
    exact ht
  · obtain ⟨-, hphase, rfl, rfl⟩ | ⟨⟨⟩, -⟩ := hpe
    have hclean := exec_cleanStatus (hran' (v :: bus')) (by rwa [polled_seq])
      (by rw [busAnswer_of_cons rfl, polled_cfg]; exact anySet_eq_false_iff.1 hv)
    rw [busAnswer_of_cons rfl, polled_polled, polled_seq, polled_cfg] at hclean
    refine ⟨{ x with tmp := v, phase := .tWData }, hbusy, hkont, fun t ht =>
      (hrun.snoc hclean).snoc (exec_of_poll (hran.polled _ hbusy) (by simp [Poll.phases, sendPhases]) ?_)⟩
    rw [Poll.event, sendEvent_of_tWData (by rw [polled_seq]), writeReg_polled, polled_txChar]
    exact ht

end Sys2Proof.Machine
end

section
/-! SUPPORT. 42_send_char: the events that end `SEND_CHAR` (R160, 40_common R126), its whole runs, what it does on the bus
(R163), and what an event of either send operation leaves alone. -/

namespace Sys2Proof.Machine

/-- `TxEnd` for `SEND_CHAR`: the operation is done, with the code of the sequence (40_common R126). -/
theorem txEnd_of_sendChar {s : State} (hk : s.m.kont = some .sendChar) (code : ErrorStatus) :
    txEnd .main code s = some (goto .main (.done code) s) := by
  rw [txEnd, hk]

theorem eq_of_txEnd_sendChar {code : ErrorStatus} {s t : State} (h : txEnd .main code s = some t)
    (hk : s.m.kont = some .sendChar) : t = goto .main (.done code) s := by
  rw [txEnd_of_sendChar hk] at h
  exact (Option.some.inj h).symm

/-- Settles O20: each of the three ends of the sequence is a move to `DONE`. -/
theorem sendCharEndEventsFollowTable : Obligations.SendCharEndEventsFollowTable := by
  intro s c t hq hm hr hk
  obtain ⟨-, -, hlatch, -⟩ := running_latch hr
  obtain ⟨rfl, rfl⟩ := hlatch c t rfl
  have hran : Poll.tx.ranBy .main (.sendChar s.latch.c s.latch.arg) s := ⟨hq, hm, hr, by simp [Poll.ops, Instr.op]⟩
  refine ⟨?_, ?_, fun hp => ?_⟩
  · rintro hp _ rfl hlt
    exact exec_of_poll hran (by rw [seq_main, hp]; decide)
      ((sendEvent_of_late (c := .main) hp (decide_eq_true hlt)).trans (txEnd_of_sendChar (s := sampleNow .main s) hk _))
  · rintro hp _ rfl hv
    have herror : anySet (busAnswer .main .rsrEcr s) s.cfg.rsrAny = true := by simpa [anySet] using hv
    exact exec_of_poll hran (by rw [seq_main, hp]; decide)
      ((sendEvent_of_statusError (c := .main) hp herror).trans (txEnd_of_sendChar (s := readReg .main .rsrEcr s) hk _))
  · rw [← BitVec.add_zero s.cfg.uartBase]
    exact exec_of_poll hran (by rw [seq_main, hp]; decide)
      ((sendEvent_of_tWData (c := .main) hp).trans (txEnd_of_sendChar (s := writeReg .main .data _ s) hk _))

/-! ### Whole runs -/

/-- Just after the acceptance of `SEND_CHAR` (40_common R120, R126). -/
def State.sendCharAccepted (ch : Byte) (t : Word) (s : State) : State :=
  goto .main (if t = 0#32 then .tRFlag else .tStart) (setKont .main .sendChar (accept (.sendChar ch t) s))

theorem exec_sendChar_accept {ch : Byte} {t : Word} {s : State} (hidle : bothIdle s) :
    exec (.sendChar ch t) s = .next (s.sendCharAccepted ch t) := by
  obtain ⟨hm, hq⟩ := hidle
  exact (mainEvent_accept hq hm).trans (congrArg _ (txStart_eq .main _))

/-- Settles O29: after the acceptance comes `SendCharSeq`, and `TxEnd` leads to the completion. -/
theorem sendCharRunsItsPseudocode : Obligations.SendCharRunsItsPseudocode := by
  intro s ch t _ hidle h
  have ⟨_, hq⟩ := hidle
  obtain ⟨o, ho, rfl⟩ := Option.map_eq_some_iff.1 h
  have hran : Poll.tx.ranBy .main (.sendChar ch t) (s.sendCharAccepted ch t) :=
    ⟨hq, rfl, rfl, by simp [Poll.ops, Instr.op]⟩
  obtain ⟨x, hbusy, hkont, hend⟩ := sendSeqSpec_runs hran rfl ho
  obtain ⟨n, hrun⟩ := runs.head (exec_sendChar_accept hidle) (hend _ (txEnd_of_sendChar hkont _))
  exact completesAs_of_doneAs hrun hq hbusy rfl rfl rfl (by and_intros <;> rfl)

/-! ### What an event does on the bus -/

/-- 20_memory R61: no two registers have the same address. -/
theorem Cfg.addr_inj {k : Cfg} {r r' : Reg} : Cfg.addr k r = Cfg.addr k r' ↔ r = r' := by
  rw [Cfg.addr, Cfg.addr, BitVec.add_right_inj]
  constructor
  · cases r <;> cases r' <;> decide
  · rintro rfl; rfl

/-- The events of `SEND_CHAR` that are no write: a time sample, or a read of `FLAG` or `RSR_ECR` (R163). -/
def sendCharLooks (k : Cfg) (e : Event) : Prop :=
  (∃ v, e = .now .main v) ∨ ∃ r v, r ∈ [Reg.flag, .rsrEcr] ∧ e = .read .main (Cfg.addr k r) v

theorem sendCharLooks.not_write {k : Cfg} {e : Event} (h : sendCharLooks k e) (a v : Word) : e ≠ .write .main a v := by
  obtain ⟨w, rfl⟩ | ⟨r, w, -, rfl⟩ := h <;> nofun

theorem sendCharLooks.not_readData {k : Cfg} {e : Event} (h : sendCharLooks k e) (v : Word) :
    e ≠ .read .main (Cfg.addr k .data) v := by
  obtain ⟨w, rfl⟩ | ⟨r, w, hr, rfl⟩ := h
  · nofun
  · intro he
    injection he with _ haddr _
    rw [Cfg.addr_inj.1 haddr] at hr
    exact absurd hr (by decide)

/-- An event of the sequence of `SEND_CHAR` looks and does not end with Ok, or writes the character and does; the latches
stay as they are. -/
theorem sendEvent_looks_or_writes {s t : State} (hk : s.m.kont = some .sendChar) (h : sendEvent .main s = some t) :
    t.latch = s.latch
      ∧ ((∃ e, sendCharLooks s.cfg e ∧ t.history = s.history ++ [e] ∧ t.m.phase ≠ .done .ok)
        ∨ (t.history = s.history ++ [.write .main (Cfg.addr s.cfg .data) (s.latch.c.setWidth 32)]
          ∧ t.m.phase = .done .ok)) := by
  obtain ⟨-, rfl⟩ | ⟨-, rfl⟩ | ⟨-, -, rfl⟩ | ⟨-, -, he⟩ | ⟨-, -, rfl⟩ | ⟨-, -, he⟩ | ⟨-, he⟩ := sendEvent_next h
  · exact ⟨rfl, .inl ⟨_, .inl ⟨_, rfl⟩, rfl, nofun⟩⟩
  · refine ⟨rfl, .inl ⟨_, .inr ⟨.flag, _, by decide, rfl⟩, rfl, ?_⟩⟩
    rw [goto_main_m]
    split
    · split <;> nofun
    · nofun
  · exact ⟨rfl, .inl ⟨_, .inl ⟨_, rfl⟩, rfl, nofun⟩⟩
  · obtain rfl := eq_of_txEnd_sendChar he hk
    exact ⟨rfl, .inl ⟨_, .inl ⟨_, rfl⟩, rfl, nofun⟩⟩
  · exact ⟨rfl, .inl ⟨_, .inr ⟨.rsrEcr, _, by decide, rfl⟩, rfl, nofun⟩⟩
  · obtain rfl := eq_of_txEnd_sendChar he hk
    exact ⟨rfl, .inl ⟨_, .inr ⟨.rsrEcr, _, by decide, rfl⟩, rfl, nofun⟩⟩
  · obtain rfl := eq_of_txEnd_sendChar he hk
    exact ⟨rfl, .inr ⟨rfl, rfl⟩⟩

theorem phase_of_sendEvent {c : Ctx} {s t : State} (h : sendEvent c s = some t) : (s.seq c).phase ∈ sendPhases := by
  unfold sendEvent at h
  split at h
  case h_6 => cases h
  all_goals simp_all [sendPhases]

/-- Where the invariant holds, the sequence that `SEND_CHAR` is in the middle of is its own (40_common R126). -/
theorem Inv.kont_of_sendChar {s t : State} (hI : Inv s) (hm : s.m.busy = true) (ho : s.latch.op = 2#4)
    (h : sendEvent .main s = some t) : s.m.kont = some .sendChar := by
  have hsending : mainSending s := sending_of_phaseFits (c := .main) (hI.mainBusy hm) (phase_of_sendEvent h)
  obtain ⟨-, hk⟩ | ⟨ho', -⟩ := hsending
  · exact hk
  · exact absurd (ho.symm.trans ho') (by decide)

/-- Settles O47: the completion adds nothing to the history; an event of the sequence looks or writes. -/
theorem sendCharWritesDataExactlyOnOk : Obligations.SendCharWritesDataExactlyOnOk := by
  intro c b s t hI hq hm hr h
  obtain ⟨ho, -, hlatch, -⟩ := running_latch hr
  obtain ⟨rfl, rfl⟩ := hlatch c b rfl
  obtain ⟨-, hn⟩ | ⟨-, hn, -⟩ | ⟨-, -, -, he⟩ := mainEvent_next h
  · simp [hq, hr] at hn
  · simp [hm] at hn
  obtain ⟨e, -, rfl⟩ | he := sendCharEvent_next he
  · refine ⟨fun a v hh => ?_, fun v hh => ?_, nofun⟩ <;> simp at hh
  · obtain ⟨-, ⟨e, hlooks, hh, hp⟩ | ⟨hh, hp⟩⟩ := sendEvent_looks_or_writes (hI.kont_of_sendChar hm ho he) he
    · refine ⟨fun a v hw => ?_, fun v hd => ?_, fun hok => absurd hok hp⟩
      · exact absurd (by simpa [hh] using hw) (hlooks.not_write a v)
      · exact absurd (by simpa [hh] using hd) (hlooks.not_readData v)
    · refine ⟨fun a v hw => ?_, fun v hd => ?_, fun _ => ⟨_, hh⟩⟩
      · obtain ⟨rfl, rfl⟩ : Cfg.addr s.cfg .data = a ∧ s.latch.c.setWidth 32 = v := by simpa [hh] using hw
        exact ⟨rfl, rfl, hp⟩
      · simp [hh] at hd

/-! ### What an event of a send operation leaves alone -/

/-- What the acceptance of `SEND_CHAR` or `SEND_STRING` leaves alone: besides what a sequence does, the irq context,
`OUT_CHAR` and the earlier events. -/
def acceptKeeps (s t : State) : Prop :=
  seqKeeps s t ∧ t.q = s.q ∧ t.qChar = s.qChar ∧ t.outChar = s.outChar ∧ s.history <+: t.history

theorem sendCharStart_acceptKeeps (i : Instr) (s : State) : acceptKeeps s (sendCharStart (accept i s)) := by
  simp [sendCharStart, txStart_eq, acceptKeeps, seqKeeps]

theorem sendStringStart_acceptKeeps (i : Instr) (s : State) : acceptKeeps s (sendStringStart (accept i s)) := by
  unfold sendStringStart
  split
  · split <;> simp [txStart_eq, acceptKeeps, seqKeeps]
  · simp [acceptKeeps, seqKeeps]

/-- One event of `SEND_CHAR` or `SEND_STRING`: nothing or the acceptance, or an event of the run. -/
theorem exec_send_next {i : Instr} {s t : State} (hi : i.op = 2#4 ∨ i.op = 4#4) (h : exec i s = .next t) :
    t = s ∨ (s.m.busy = false ∧ acceptKeeps s t) ∨ sendCharEvent s = some t := by
  cases i with
  | sendChar c b =>
    obtain ⟨rfl, -⟩ | ⟨-, hm, rfl⟩ | ⟨-, -, -, he⟩ := mainEvent_next h
    · exact .inl rfl
    · exact .inr (.inl ⟨hm, sendCharStart_acceptKeeps _ s⟩)
    · exact .inr (.inr he)
  | sendString p str b =>
    obtain ⟨rfl, -⟩ | ⟨-, hm, rfl⟩ | ⟨-, -, -, he⟩ := mainEvent_next h
    · exact .inl rfl
    · exact .inr (.inl ⟨hm, sendStringStart_acceptKeeps _ s⟩)
    · exact .inr (.inr (sendStringEvent_eq s ▸ he))
  | _ => simp [Instr.op] at hi

/-- Settles O51: nothing happens, or the operation is accepted, or completes, or makes an event of its sequence. -/
theorem frameOfSendOperations : Obligations.FrameOfSendOperations := by
  intro i s t h hi
  obtain rfl | ⟨hm, hkeeps⟩ | he := exec_send_next hi h
  · simp
  · obtain ⟨⟨hcfg, hdev, hop, hres, hress, hturns, hcount, hport⟩, hq, hqc, hout, hhist⟩ := hkeeps
    exact ⟨hcfg, hq, hqc, hout, hdev, hop, by simp [hm], by simp [hm], fun _ => ⟨hres, hress⟩, hturns, hcount, hport,
      hhist⟩
  obtain ⟨e, hp, rfl⟩ | he := sendCharEvent_next he
  · simp [hp]
  · obtain ⟨⟨hcfg, hdev, hop, hres, hress, hturns, hcount, hport⟩,
      ⟨hq, hqc, -, -, hlop, hlp, hlarg, hlstr⟩, hout, e, hhist⟩ := sendEvent_main_keeps he
    exact ⟨hcfg, hq, hqc, hout, hdev, hop, fun _ => ⟨hlop, hlp, hlarg, hlstr⟩,
      fun _ hk => (sendEvent_looks_or_writes hk he).1, fun _ => ⟨hres, hress⟩, hturns, hcount, hport,
      hhist ▸ List.prefix_append _ _⟩

end Sys2Proof.Machine
end

section
/-! SUPPORT. 43_get_char R170 as runs: `GetCharSeq`, on either context and for any number of flag reads, does what its
pseudocode says; and what its events do on the bus (R173). -/

namespace Sys2Proof.Machine

/-! ### The ends of `GetCharSeq` -/

section
variable {c : Ctx} {s : State}

theorem getEvent_of_late (hp : (s.seq c).phase = .gNow)
    (hd : deadlinePassed (clockAnswer c s) (s.seq c).tStart (budget c s) = true) :
    getEvent c s = rxEnd c .timeout (sampleNow c s) := by
  simp only [getEvent, hp, hd, if_true]

/-- The status check, by the code it gives (R122). -/
theorem getEvent_of_gRRsr (hp : (s.seq c).phase = .gRRsr) :
    getEvent c s =
      if decodeRxStatus s.cfg (busAnswer c .rsrEcr s) = .ok then some (goto c .gRData (readReg c .rsrEcr s))
      else rxEnd c (decodeRxStatus s.cfg (busAnswer c .rsrEcr s)) (readReg c .rsrEcr s) := by
  have htmp : ((readReg c .rsrEcr s).seq c).tmp = busAnswer c .rsrEcr s := by cases c <;> rfl
  simp only [getEvent, hp, htmp]

theorem getEvent_of_gRData (hp : (s.seq c).phase = .gRData) :
    getEvent c s = rxEnd c .ok (readReg c .data s) := by
  simp only [getEvent, hp]

end

/-- `G_R_RSR` where no error is recorded (R126). -/
theorem exec_cleanRxStatus {c : Ctx} {i : Instr} {s : State} (hran : Poll.rx.ranBy c i s)
    (hp : (s.seq c).phase = .gRRsr) (hv : decodeRxStatus s.cfg (busAnswer c .rsrEcr s) = .ok) :
    exec i s = .next (s.polled c { s.seq c with tmp := busAnswer c .rsrEcr s, phase := .gRData }
      [.read c (Cfg.addr s.cfg .rsrEcr) (busAnswer c .rsrEcr s)] s.busAnswers.tail s.clockAnswers) := by
  refine exec_of_poll hran (by rw [hp]; decide) ?_
  rw [Poll.event, getEvent_of_gRRsr hp, if_pos hv]
  cases c <;> rfl

/-! ### `GetCharSeq` against its pseudocode -/

/-- How the pseudocode of `GetCharSeq` ends: with its poll, with the status check, or with the read of `DATA` (R170). -/
theorem getSeqSpec_eq_some {k : Cfg} {c : Ctx} {b : Word} {bus clock : List Word} {o : SeqOut}
    (h : getSeqSpec k c b bus clock = some o) :
    ∃ p, pollSpec k c k.flagRxfe b bus clock = some p
      ∧ ((p.timedOut = true ∧ o = ⟨.timeout, 0#8, p.events, p.bus, p.clock⟩)
        ∨ (p.timedOut = false ∧ ∃ v bus', p.bus = v :: bus' ∧ decodeRxStatus k v ≠ .ok
            ∧ o = ⟨decodeRxStatus k v, 0#8, p.events ++ [.read c (Cfg.addr k .rsrEcr) v], bus', p.clock⟩)
        ∨ (p.timedOut = false ∧ ∃ v d bus', p.bus = v :: d :: bus' ∧ decodeRxStatus k v = .ok
            ∧ o = ⟨.ok, lowByte d, p.events ++ [.read c (Cfg.addr k .rsrEcr) v]
              ++ [.read c (Cfg.addr k .data) d], bus', p.clock⟩)) := by
  unfold getSeqSpec at h
  split at h
  · cases h
  · rename_i p hpoll
    refine ⟨p, hpoll, ?_⟩
    split at h
    · rename_i hto
      cases h
      exact .inl ⟨hto, rfl⟩
    · rename_i hto
      have hto : p.timedOut = false := by simpa using hto
      split at h
      · cases h
      · rename_i v bus' hbus
        simp only at h
        split at h
        · rename_i hv
          split at h
          · cases h
          · cases h
            exact .inr (.inr ⟨hto, v, _, _, hbus, hv, rfl⟩)
        · rename_i hv
          cases h
          exact .inr (.inl ⟨hto, v, bus', hbus, hv, rfl⟩)

/-- `GetCharSeq` ends as its pseudocode says: the run leads to whatever `RxEnd` makes of the code and of the state in
which the sequence's events have happened; with Ok that state holds the byte (R170, 40_common R126). -/
theorem getSeqSpec_runs {c : Ctx} {i : Instr} {o : SeqOut} {s : State} (hran : Poll.rx.ranBy c i s)
    (hp : (s.seq c).phase = if budget c s = 0#32 then .gRFlag else .gStart)
    (h : getSeqSpec s.cfg c (budget c s) s.busAnswers s.clockAnswers = some o) :
    ∃ x : Seq, x.busy = (s.seq c).busy ∧ x.kont = (s.seq c).kont ∧ (o.code = .ok → lowByte x.tmp = o.byte)
      ∧ ∀ t, rxEnd c o.code (s.polled c x o.events o.bus o.clock) = some t → runs i s t := by
  obtain ⟨⟨timedOut, events, bus, clock⟩, hpoll, hends⟩ := getSeqSpec_eq_some h
  obtain ⟨u, hrun, x, es, clock', rfl, hbusy, hkont, hpe⟩ := pollSpec_runs hran hp hpoll
  have hran' := fun bus => hran.polled (bus := bus) (clock := clock') es hbusy
  obtain ⟨rfl, rfl⟩ | ⟨rfl, v, bus', rfl, hv, rfl⟩ | ⟨rfl, v, d, bus', rfl, hv, rfl⟩ := hends
  · obtain ⟨⟨⟩, -⟩ | ⟨-, hphase, now, rfl, rfl, hd⟩ := hpe
    refine ⟨x, hbusy, hkont, nofun,
      fun t ht => hrun.snoc (exec_of_poll (hran' _) (by rw [polled_seq, hphase]; decide) ?_)⟩
    rw [Poll.event, getEvent_of_late (by rwa [polled_seq])
      (by rw [clockAnswer_of_cons rfl, polled_seq, polled_budget]; exact hd), sampleNow_polled]
    exact ht
  · obtain ⟨-, hphase, rfl, rfl⟩ | ⟨⟨⟩, -⟩ := hpe
    refine ⟨{ x with tmp := v }, hbusy, hkont, fun hok => absurd hok hv,
      fun t ht => hrun.snoc (exec_of_poll (hran' _) (by rw [polled_seq, hphase]; decide) ?_)⟩
    rw [Poll.event, getEvent_of_gRRsr (by rwa [polled_seq]), busAnswer_of_cons rfl, polled_cfg, if_neg hv,
      readReg_polled]
    exact ht
  · obtain ⟨-, hphase, rfl, rfl⟩ | ⟨⟨⟩, -⟩ := hpe
    have hclean := exec_cleanRxStatus (hran' (v :: d :: bus')) (by rwa [polled_seq])
      (by rw [busAnswer_of_cons rfl, polled_cfg]; exact hv)
    rw [busAnswer_of_cons rfl, polled_polled, polled_seq, polled_cfg] at hclean
    refine ⟨{ x with tmp := d, phase := .gRData }, hbusy, hkont, fun _ => rfl, fun t ht =>
      (hrun.snoc hclean).snoc (exec_of_poll (hran.polled _ hbusy) (by simp [Poll.phases, getPhases]) ?_)⟩
    rw [Poll.event, getEvent_of_gRData (by rw [polled_seq]), polled_busAnswers, List.tail_cons, readReg_polled]
    exact ht

/-! ### What an event of `GetCharSeq` does on the bus -/

/-- From `s` to `t` the history grows by a time sample or a read of context `c`. -/
def addsLook (c : Ctx) (s t : State) : Prop :=
  (∃ v, t.history = s.history ++ [.now c v]) ∨ ∃ a v, t.history = s.history ++ [.read c a v]

theorem addsLook.of_history_eq {c : Ctx} {s u t : State} (hu : addsLook c s u) (ht : t.history = u.history) :
    addsLook c s t := by
  rwa [addsLook, ht]

theorem addsLook.then_goto {c d : Ctx} {p : Phase} {s u : State} (hu : addsLook c s u) : addsLook c s (goto d p u) :=
  hu.of_history_eq (goto_history d p u)

theorem startClock_addsLook (c : Ctx) (s : State) : addsLook c s (startClock c s) := .inl ⟨_, startClock_history c s⟩

theorem sampleNow_addsLook (c : Ctx) (s : State) : addsLook c s (sampleNow c s) := .inl ⟨_, sampleNow_history c s⟩

theorem readReg_addsLook (c : Ctx) (r : Reg) (s : State) : addsLook c s (readReg c r s) :=
  .inr ⟨_, _, readReg_history c r s⟩

theorem addsLook.not_write {c d : Ctx} {s t : State} (h : addsLook c s t) (a v : Word) :
    t.history ≠ s.history ++ [.write d a v] := by
  obtain ⟨w, hh⟩ | ⟨b, w, hh⟩ := h <;> simp [hh]

/-- An event of `GetCharSeq` is a time sample or a read (R173). -/
theorem getEvent_addsLook {c : Ctx} {s t : State} (h : getEvent c s = some t) : addsLook c s t := by
  obtain ⟨-, rfl⟩ | ⟨-, rfl⟩ | ⟨-, -, rfl⟩ | ⟨-, -, he⟩ | ⟨-, -, rfl⟩ | ⟨-, -, he⟩ | ⟨-, he⟩ := getEvent_next h
  · exact (startClock_addsLook c s).then_goto
  · exact (readReg_addsLook c .flag s).then_goto
  · exact (sampleNow_addsLook c s).then_goto
  · exact (sampleNow_addsLook c s).of_history_eq (rxEnd_history he)
  · exact (readReg_addsLook c .rsrEcr s).then_goto
  · exact (readReg_addsLook c .rsrEcr s).of_history_eq (rxEnd_history he)
  · exact (readReg_addsLook c .data s).of_history_eq (rxEnd_history he)

end Sys2Proof.Machine
end

section
/-! SUPPORT. 43_get_char: the events of `GET_CHAR` (R170, 40_common R126), its whole runs, and its properties: it writes
nothing on the bus and writes `OUT_CHAR` in the read of `DATA` alone (R173); and what an event leaves alone. -/

namespace Sys2Proof.Machine

/-! ### `RxEnd` for `GET_CHAR` -/

/-- The low byte of a word is the word cut to eight bits (40_common R124(e)). -/
theorem lowByte_eq_setWidth (v : Word) : lowByte v = v.setWidth 8 := (BitVec.setWidth_eq_extractLsb' (by decide)).symm

section
variable {s : State} (hk : s.m.kont = some .getChar)
include hk

/-- With Ok the byte goes to `OUT_CHAR`. -/
theorem rxEnd_getChar_ok :
    rxEnd .main .ok s = some (goto .main (.done .ok) { s with outChar := some (lowByte s.m.tmp) }) := by
  rw [rxEnd, hk]
  rfl

/-- An error is returned and `OUT_CHAR` stays. -/
theorem rxEnd_getChar_error {code : ErrorStatus} (hc : code ≠ .ok) :
    rxEnd .main code s = some (goto .main (.done code) s) := by
  rw [rxEnd, hk]
  exact if_neg hc

end

/-! ### The events one by one -/

section
variable {i : Instr} {s : State} (hran : Poll.rx.ranBy .main i s)
include hran

/-- `G_NOW`: past the budget the operation ends with Timeout, else the flag is read again. -/
theorem exec_gNow (hk : s.m.kont = some .getChar) (hp : s.m.phase = .gNow) :
    exec i s = .next (goto .main
      (if s.latch.arg.toNat < (clockAnswer .main s - s.m.tStart).toNat then .done .timeout else .gRFlag)
      (sampleNow .main s)) := by
  split
  · rename_i hlt
    exact exec_of_poll hran (by rw [seq_main, hp]; decide)
      ((getEvent_of_late (c := .main) hp (decide_eq_true hlt)).trans
        (rxEnd_getChar_error (s := sampleNow .main s) hk nofun))
  · rename_i hle
    exact exec_poll_deadline hran hp (decide_eq_false hle)

/-- `G_R_RSR`: the first error of R122 ends the operation, else the byte is read. -/
theorem exec_gRRsr (hk : s.m.kont = some .getChar) (hp : s.m.phase = .gRRsr) :
    exec i s = .next (goto .main
      (if decodeRxStatus s.cfg (busAnswer .main .rsrEcr s) = .ok then .gRData
        else .done (decodeRxStatus s.cfg (busAnswer .main .rsrEcr s)))
      (readReg .main .rsrEcr s)) := by
  refine exec_of_poll hran (by rw [seq_main, hp]; decide) ((getEvent_of_gRRsr (c := .main) hp).trans ?_)
  split
  · rfl
  · rename_i hv
    exact rxEnd_getChar_error (s := readReg .main .rsrEcr s) hk hv

/-- `G_R_DATA`: the byte read goes to `OUT_CHAR`. -/
theorem exec_gRData (hk : s.m.kont = some .getChar) (hp : s.m.phase = .gRData) :
    exec i s = .next (goto .main (.done .ok)
      { readReg .main .data s with outChar := some (lowByte (busAnswer .main .data s)) }) :=
  exec_of_poll hran (by rw [seq_main, hp]; decide)
    ((getEvent_of_gRData (c := .main) hp).trans (rxEnd_getChar_ok (s := readReg .main .data s) hk))

end

/-- Settles O22: the first two rows are the receive poll's, the others end the sequence or lead on. -/
theorem getCharEventsFollowTable : Obligations.GetCharEventsFollowTable := by
  intro s t hq hm hr hk
  obtain ⟨-, -, -, hlatch, -⟩ := running_latch hr
  obtain ⟨-, rfl⟩ := hlatch true t rfl
  have hran : Poll.rx.ranBy .main (.getChar true s.latch.arg) s := ⟨hq, hm, hr, by simp [Poll.ops, Instr.op]⟩
  refine ⟨?_, ?_, ?_, ?_, ?_⟩
  · rintro hp _ rfl
    exact exec_poll_start hran hp
  · rintro hp _ rfl
    exact exec_poll_flag hran hp
  · rintro hp _ rfl
    exact exec_gNow hran hk hp
  · rintro hp _ rfl
    exact exec_gRRsr hran hk hp
  · rintro hp _ rfl
    rw [exec_gRData hran hk hp, lowByte_eq_setWidth, ← BitVec.add_zero s.cfg.uartBase]
    rfl

/-! ### Whole runs -/

/-- Just after the acceptance of `GET_CHAR` with a destination (40_common R120, R126). -/
def State.getCharAccepted (t : Word) (s : State) : State :=
  goto .main (if t = 0#32 then .gRFlag else .gStart) (setKont .main .getChar (accept (.getChar true t) s))

theorem exec_getChar_accept {t : Word} {s : State} (hidle : bothIdle s) :
    exec (.getChar true t) s = .next (s.getCharAccepted t) := by
  obtain ⟨hm, hq⟩ := hidle
  exact (mainEvent_accept hq hm).trans (congrArg _ (rxStart_eq .main _))

/-- R171: with a null destination the acceptance leads straight to the completion. -/
theorem exec_getChar_null {t : Word} {s : State} (hidle : bothIdle s) :
    exec (.getChar false t) s = .next (goto .main (.done .invalidParam) (accept (.getChar false t) s)) := by
  obtain ⟨hm, hq⟩ := hidle
  exact mainEvent_accept hq hm

/-- With a destination: after the acceptance comes `GetCharSeq`, and `RxEnd` leads to the completion, with the byte
delivered if the code is Ok. -/
theorem getChar_completesAs {s : State} {t : Word} {o : SeqOut} (hidle : bothIdle s)
    (h : getSeqSpec s.cfg .main t s.busAnswers s.clockAnswers = some o) :
    completesAs (.getChar true t) s (o.asOp (if o.code = .ok then some o.byte else none)) := by
  have ⟨_, hq⟩ := hidle
  have hran : Poll.rx.ranBy .main (.getChar true t) (s.getCharAccepted t) :=
    ⟨hq, rfl, rfl, by simp [Poll.ops, Instr.op]⟩
  obtain ⟨x, hbusy, hkont, hbyte, hend⟩ := getSeqSpec_runs hran rfl h
  obtain ⟨code, byte, events, bus, clock⟩ := o
  by_cases hc : code = .ok
  · subst hc
    obtain rfl : lowByte x.tmp = byte := hbyte rfl
    obtain ⟨n, hrun⟩ := runs.head (exec_getChar_accept hidle) (hend _ (rxEnd_getChar_ok hkont))
    exact completesAs_of_doneAs hrun hq hbusy rfl rfl rfl (by and_intros <;> rfl)
  · obtain ⟨n, hrun⟩ := runs.head (exec_getChar_accept hidle) (hend _ (rxEnd_getChar_error hkont hc))
    rw [if_neg hc]
    exact completesAs_of_doneAs hrun hq hbusy rfl rfl (by simp [completionOf, hc, SeqOut.asOp])
      (by and_intros <;> rfl)

/-- Settles O30: a null destination is rejected at the acceptance, and a present one receives. -/
theorem getCharRunsItsPseudocode : Obligations.GetCharRunsItsPseudocode := by
  intro s p t o hidle h
  have ⟨_, hq⟩ := hidle
  cases p with
  | false =>
    cases h
    exact completesAs_of_doneAs (execN_succ (exec_getChar_null hidle) 0) hq rfl rfl rfl rfl (by simp [doneAs])
  | true =>
    obtain ⟨o, ho, rfl⟩ := Option.map_eq_some_iff.1 h
    exact getChar_completesAs hidle ho

/-! ### What an event of `GET_CHAR` does on the bus -/

/-- Settles O48: an acceptance and a completion add nothing to the history; an event of the sequence adds a time sample
or a read. -/
theorem getCharNeverWrites : Obligations.GetCharNeverWrites := by
  intro p b s t a v h hw
  obtain ⟨rfl, -⟩ | ⟨-, -, rfl⟩ | ⟨-, -, -, he⟩ := mainEvent_next h
  · simp at hw
  · simp [getCharStart_history] at hw
  obtain ⟨e, -, rfl⟩ | he := getCharEvent_next he
  · simp at hw
  · exact (getEvent_addsLook he).not_write a v hw

/-! ### Where `OUT_CHAR` is written -/

/-- From `s` to `t` the main context reads `DATA` and delivers the byte (R170). -/
def deliversByte (s t : State) : Prop :=
  s.m.phase = .gRData
    ∧ t = goto .main (.done .ok)
      { readReg .main .data s with outChar := some (lowByte (busAnswer .main .data s)) }

/-- An event of `GetCharSeq` on the main context leaves `OUT_CHAR` alone, or is the one that delivers the byte. -/
theorem getEvent_main_outChar {s t : State} (h : getEvent .main s = some t) :
    t.outChar = s.outChar ∨ deliversByte s t := by
  obtain ⟨-, rfl⟩ | ⟨-, rfl⟩ | ⟨-, -, rfl⟩ | ⟨-, -, he⟩ | ⟨-, -, rfl⟩ | ⟨-, hv, he⟩ | ⟨hp, he⟩ := getEvent_next h
  · exact .inl rfl
  · exact .inl rfl
  · exact .inl rfl
  · obtain ⟨-, rfl⟩ := rxEnd_main he
    exact .inl rfl
  · exact .inl rfl
  · obtain ⟨-, rfl⟩ := rxEnd_main he
    exact .inl (by rw [if_neg hv]; rfl)
  · obtain ⟨-, rfl⟩ := rxEnd_main he
    exact .inr ⟨hp, rfl⟩

theorem getCharStart_acceptKeeps (i : Instr) (s : State) : acceptKeeps s (getCharStart (accept i s)) := by
  unfold getCharStart
  split <;> simp [rxStart_eq, acceptKeeps, seqKeeps]

theorem exec_getChar_outChar {p : Bool} {b : Word} {s t : State} (h : exec (.getChar p b) s = .next t) :
    t.outChar = s.outChar ∨ (s.m.busy = true ∧ deliversByte s t) := by
  obtain ⟨rfl, -⟩ | ⟨-, -, rfl⟩ | ⟨-, hm, -, he⟩ := mainEvent_next h
  · exact .inl rfl
  · obtain ⟨-, -, -, hout, -⟩ := getCharStart_acceptKeeps (.getChar p b) s
    exact .inl hout
  obtain ⟨e, -, rfl⟩ | he := getCharEvent_next he
  · exact .inl rfl
  · exact (getEvent_main_outChar he).imp_right fun hd => ⟨hm, hd⟩

/-- A main operation leaves `OUT_CHAR` alone where its acceptance and its run's events do. -/
theorem mainEvent_outChar {i : Instr} {start : State → State} {event : State → Option State} {s t : State}
    (hstart : ∀ u, (start u).outChar = u.outChar)
    (hevent : event s = some t → completesMain s t ∨ t.outChar = s.outChar)
    (h : mainEvent i start event s = .next t) : t.outChar = s.outChar := by
  obtain ⟨rfl, -⟩ | ⟨-, -, rfl⟩ | ⟨-, -, -, he⟩ := mainEvent_next h
  · rfl
  · exact hstart _
  · obtain ⟨e, -, rfl⟩ | hout := hevent he
    · rfl
    · exact hout

theorem initEvent_outChar {s t : State} (h : initEvent s = some t) : completesMain s t ∨ t.outChar = s.outChar := by
  obtain hc | ⟨-, -, -, -, -, -, hout, -⟩ := initEvent_keeps h
  · exact .inl hc
  · exact .inr hout

theorem sendCharEvent_outChar {s t : State} (h : sendCharEvent s = some t) :
    completesMain s t ∨ t.outChar = s.outChar := by
  obtain hc | he := sendCharEvent_next h
  · exact .inl hc
  · obtain ⟨-, -, hout, -⟩ := sendEvent_main_keeps he
    exact .inr hout

theorem maskEvent_outChar {value : Cfg → Word → Word} {s t : State} (h : maskEvent value s = some t) :
    completesMain s t ∨ t.outChar = s.outChar := by
  obtain hc | ⟨-, rfl⟩ | ⟨-, rfl⟩ := maskEvent_next h
  · exact .inl hc
  · exact .inr rfl
  · exact .inr rfl

theorem clearErrorsEvent_outChar {s t : State} (h : clearErrorsEvent s = some t) :
    completesMain s t ∨ t.outChar = s.outChar := by
  obtain hc | ⟨-, rfl⟩ := clearErrorsEvent_next h
  · exact .inl hc
  · exact .inr rfl

theorem getErrorStatusEvent_outChar {s t : State} (h : getErrorStatusEvent s = some t) :
    completesMain s t ∨ t.outChar = s.outChar := by
  obtain hc | ⟨-, rfl⟩ := getErrorStatusEvent_next h
  · exact .inl hc
  · exact .inr rfl

theorem execIrqHandler_outChar {s t : State} (h : execIrqHandler s = .next t) : t.outChar = s.outChar := by
  obtain ⟨-, rfl⟩ | ⟨-, he⟩ := execIrqHandler_next h
  · rfl
  · obtain ⟨-, -, -, hout, -⟩ := handlerEvent_keeps he
    exact hout

/-- One event of any operation leaves `OUT_CHAR` alone, or is the one in which `GET_CHAR` delivers a byte. -/
theorem exec_outChar {i : Instr} {s t : State} (h : exec i s = .next t) :
    t.outChar = s.outChar ∨ (i.op = 3#4 ∧ deliversByte s t) := by
  have hmask : ∀ u, (maskStart u).outChar = u.outChar := fun u => by rw [maskStart_eq, goto_outChar]
  cases i with
  | getChar p b => exact (exec_getChar_outChar h).imp_right fun ⟨_, hd⟩ => ⟨rfl, hd⟩
  | init => exact .inl (mainEvent_outChar (fun u => by rw [initStart_eq, goto_outChar]) initEvent_outChar h)
  | sendChar | sendString =>
    obtain rfl | ⟨-, -, -, -, hout, -⟩ | he := exec_send_next (by simp [Instr.op]) h
    · exact .inl rfl
    · exact .inl hout
    · obtain ⟨e, -, rfl⟩ | hout := sendCharEvent_outChar he
      · exact .inl rfl
      · exact .inl hout
  | enableInterrupts | disableInterrupts => exact .inl (mainEvent_outChar hmask maskEvent_outChar h)
  | clearErrors => exact .inl (mainEvent_outChar (goto_outChar _ _) clearErrorsEvent_outChar h)
  | getErrorStatus => exact .inl (mainEvent_outChar (goto_outChar _ _) getErrorStatusEvent_outChar h)
  | irqHandler => exact .inl (execIrqHandler_outChar h)

/-- Settles O45: the event that delivers the byte is the read of `DATA`, and it ends with Ok. -/
theorem outCharWrittenByDataReadOnly : Obligations.OutCharWrittenByDataReadOnly := by
  intro i s t h hne
  obtain hout | ⟨hi, hp, rfl⟩ := exec_outChar h
  · exact absurd hout hne
  · exact ⟨_, hi, hp, rfl, congrArg some (lowByte_eq_setWidth _), rfl⟩

/-! ### What an event of `GET_CHAR` leaves alone -/

/-- Settles O52: nothing happens, or the operation is accepted, or completes, or makes an event of its sequence. -/
theorem frameOfGetChar : Obligations.FrameOfGetChar := by
  intro p b s t h
  have hout : s.m.phase ≠ .gRData ∨ s.m.busy = false → t.outChar = s.outChar := fun hno => by
    obtain hout | ⟨hm, hp, -⟩ := exec_getChar_outChar h
    · exact hout
    · simp [hm, hp] at hno
  obtain ⟨rfl, -⟩ | ⟨-, hm, rfl⟩ | ⟨-, -, -, he⟩ := mainEvent_next h
  · simp
  · obtain ⟨⟨hcfg, hdev, hop, hres, hress, hturns, hcount, hport⟩, hq, hqc, -, hhist⟩ :=
      getCharStart_acceptKeeps (.getChar p b) s
    exact ⟨hcfg, hq, hqc, hdev, hop, by simp [hm], hout, fun _ => ⟨hres, hress⟩, hturns, hcount, hport, hhist⟩
  obtain ⟨e, hp, rfl⟩ | he := getCharEvent_next he
  · simp [hp]
  · obtain ⟨⟨hcfg, hdev, hop, hres, hress, hturns, hcount, hport⟩, ⟨hq, hqc, -⟩, hlatch, e, hhist⟩ :=
      getEvent_main_keeps he
    exact ⟨hcfg, hq, hqc, hdev, hop, fun _ => hlatch, hout, fun _ => ⟨hres, hress⟩, hturns, hcount, hport,
      hhist ▸ List.prefix_append _ _⟩

end Sys2Proof.Machine
end

section
/-! SUPPORT. 44_send_string: the events that end a character of `SEND_STRING` (R180, 40_common R126), and its whole
runs, one character after the other (R180, R182). -/

namespace Sys2Proof.Machine

/-- What the latches hold while a string that is present is sent (10_state R22). -/
theorem running_sendString_iff {s : State} {str : List Byte} {b : Word} :
    running s = some (.sendString true str b) ↔
      s.latch.op = 4#4 ∧ s.latch.p = true ∧ s.latch.str = str ∧ s.latch.arg = b := by
  constructor
  · intro hr
    obtain ⟨hop, -, -, -, hlatch⟩ := running_latch hr
    exact ⟨hop, hlatch str b rfl⟩
  · rintro ⟨hop, hp, hstr, harg⟩
    simp [running, hop, hp, hstr, harg]

/-! ### The end of a character -/

/-- The string latches moved on past the character that was sent (R180). -/
def State.stepIndex (s : State) : State := { s with latch := { s.latch with idx := s.latch.idx + 1 } }

/-- The string latches at the next character, `c` (R180). -/
def State.nextCharacter (c : Byte) (s : State) : State :=
  { s with latch := { s.latch with idx := s.latch.idx + 1, c := c } }

/-- The three ways a character of a string ends (40_common R126, `TxEnd`). -/
theorem stringNext_eq_some {code : ErrorStatus} {s t : State} :
    stringNext code s = some t ↔
      (code ≠ .ok ∧ t = goto .main (.done code) s)
        ∨ (code = .ok ∧ s.latch.idx + 1 = s.latch.str.length ∧ t = goto .main (.done .ok) s.stepIndex)
        ∨ (code = .ok ∧ ∃ c, s.latch.str[s.latch.idx + 1]? = some c
            ∧ t = goto .main (if s.latch.arg = 0#32 then .tRFlag else .tStart) (s.nextCharacter c)) := by
  unfold stringNext
  by_cases hc : code = .ok
  · by_cases hlast : s.latch.idx + 1 = s.latch.str.length
    · simp [hc, hlast, State.stepIndex, @eq_comm _ t]
    · cases hnext : s.latch.str[s.latch.idx + 1]? with
      | none => simp [hc, hlast, hnext]
      | some c =>
        simp only [hc, hlast, hnext, txStart_eq, if_true, if_false, Option.some_inj, ne_eq, not_true, false_and,
          false_or, true_and, exists_eq_left']
        exact eq_comm
  · simp [hc, @eq_comm _ t]

/-- `TxEnd` for `SEND_STRING` (40_common R126). -/
theorem txEnd_of_sendString {s : State} (hk : s.m.kont = some .sendString) (code : ErrorStatus) :
    txEnd .main code s = stringNext code s := by
  rw [txEnd, hk]

/-- Settles O21: the two failures, the last character and any earlier one are the ways a character ends. -/
theorem sendStringEndEventsFollowTable : Obligations.SendStringEndEventsFollowTable := by
  intro s str t hq hm hr hk
  obtain ⟨-, -, rfl, rfl⟩ := running_sendString_iff.1 hr
  have hran : Poll.tx.ranBy .main (.sendString true s.latch.str s.latch.arg) s :=
    ⟨hq, hm, hr, by simp [Poll.ops, Instr.op]⟩
  refine ⟨?_, ?_, fun hp hlast => ?_, fun hp c hnext => ?_⟩
  · rintro hp _ rfl hlt
    refine exec_of_poll hran (by rw [seq_main, hp]; decide)
      ((sendEvent_of_late (c := .main) hp (decide_eq_true hlt)).trans ?_)
    exact (txEnd_of_sendString (s := sampleNow .main s) hk _).trans (stringNext_eq_some.2 (.inl ⟨nofun, rfl⟩))
  · rintro hp _ rfl hv
    have herror : anySet (busAnswer .main .rsrEcr s) s.cfg.rsrAny = true := by simpa [anySet] using hv
    refine exec_of_poll hran (by rw [seq_main, hp]; decide)
      ((sendEvent_of_statusError (c := .main) hp herror).trans ?_)
    exact (txEnd_of_sendString (s := readReg .main .rsrEcr s) hk _).trans (stringNext_eq_some.2 (.inl ⟨nofun, rfl⟩))
  all_goals
    rw [← BitVec.add_zero s.cfg.uartBase]
    refine exec_of_poll hran (by rw [seq_main, hp]; decide) ((sendEvent_of_tWData (c := .main) hp).trans
      ((txEnd_of_sendString (s := writeReg .main .data _ s) hk _).trans (stringNext_eq_some.2 ?_)))
  · exact .inr (.inl ⟨rfl, hlast, rfl⟩)
  · exact .inr (.inr ⟨rfl, c, hnext, rfl⟩)

/-! ### Runs joined -/

theorem exec_of_execN_succ {i : Instr} {n : Nat} {s t : State} (h : execN i (n + 1) s = .next t) :
    ∃ u, exec i s = .next u ∧ execN i n u = .next t := by
  unfold execN at h
  split at h
  · exact ⟨_, ‹_›, h⟩
  · cases h
  · cases h

theorem runs.trans {i : Instr} {s u t : State} (h : runs i s u) (hrun : runs i u t) : runs i s t := by
  obtain ⟨n, hn⟩ := h
  induction n generalizing s with
  | zero => cases hn; exact hrun
  | succ n ih =>
    obtain ⟨v, he, hrest⟩ := exec_of_execN_succ hn
    exact .head he (ih hrest)

/-- What two runs of sequences have done one after the other. -/
theorem doneAs.trans {s u v : State} {o o' : SeqOut} (h : doneAs s u (o.asOp none)) (h' : doneAs u v (o'.asOp none)) :
    doneAs s v ({ o' with events := o.events ++ o'.events }.asOp none) := by
  simp_all [doneAs, SeqOut.asOp]

/-- What is left of the oracle's script, and the configuration. -/
theorem doneAs.script {s u : State} {o : OpOut} (h : doneAs s u o) :
    u.cfg = s.cfg ∧ u.busAnswers = o.bus ∧ u.clockAnswers = o.clock := by
  obtain ⟨-, -, -, -, -, hbus, hclock, -, -, hcfg, -⟩ := h
  exact ⟨hcfg, hbus, hclock⟩

/-! ### A character of a running string -/

/-- `SEND_STRING str, b` is at the start of the poll of the character `c`, and `rest` is still to be sent after it. -/
structure AtCharacter (str : List Byte) (b : Word) (c : Byte) (rest : List Byte) (s : State) : Prop where
  ran : Poll.tx.ranBy .main (.sendString true str b) s
  kont : s.m.kont = some .sendString
  phase : s.m.phase = if b = 0#32 then .tRFlag else .tStart
  char : s.latch.c = c
  left : str.drop s.latch.idx = c :: rest

/-- The run from `s` leads to whatever `TxEnd` makes of the outcome `o` of `SendCharSeq`, as `sendSeqSpec_runs` says of
the pseudocode's outcome. -/
def sequenceEnds (i : Instr) (o : SeqOut) (s : State) : Prop :=
  ∃ x : Seq, x.busy = s.m.busy ∧ x.kont = s.m.kont
    ∧ ∀ t, txEnd .main o.code (s.polled .main x o.events o.bus o.clock) = some t → runs i s t

/-- The run from `s` does all the outcome `o` says, and leads to `DONE` with its code. -/
def stringEnds (i : Instr) (o : SeqOut) (s : State) : Prop :=
  ∃ u, runs i s u ∧ Poll.tx.ranBy .main i u ∧ u.m.phase = .done o.code ∧ doneAs s u (o.asOp none)

/-- What has been done before the rest of the string. -/
theorem stringEnds.after {i : Instr} {o o' : SeqOut} {s u : State} (hrun : runs i s u) (hd : doneAs s u (o.asOp none))
    (h : stringEnds i o' u) : stringEnds i { o' with events := o.events ++ o'.events } s := by
  obtain ⟨v, hrun', hran, hp, hd'⟩ := h
  exact ⟨v, hrun.trans hrun', hran, hp, hd.trans hd'⟩

section
variable {str rest : List Byte} {b : Word} {c c' : Byte} {o : SeqOut} {s : State}

/-- What the operation in progress says of the latches. -/
theorem AtCharacter.latch (hat : AtCharacter str b c rest s) : s.latch.str = str ∧ s.latch.arg = b := by
  obtain ⟨-, -, hr, -⟩ := hat.ran
  obtain ⟨-, -, hstr, harg⟩ := running_sendString_iff.1 hr
  exact ⟨hstr, harg⟩

/-- The operation goes on in every state that keeps its operands. -/
theorem AtCharacter.ran_of_keeps {u : State} (hat : AtCharacter str b c rest s) (hu : mainSeqKeeps s u) :
    Poll.tx.ranBy .main (.sendString true str b) u := by
  obtain ⟨hq, hm, hr, hop⟩ := hat.ran
  obtain ⟨huq, -, hum, -, huop, hup, huarg, hustr⟩ := hu
  rw [running_sendString_iff, ← huop, ← hup, ← hustr, ← huarg] at hr
  exact ⟨huq ▸ hq, hum.trans hm, running_sendString_iff.2 hr, hop⟩

theorem AtCharacter.length (hat : AtCharacter str b c rest s) : s.latch.idx + (rest.length + 1) = str.length := by
  have hlen := congrArg List.length hat.left
  rw [List.length_drop, List.length_cons] at hlen
  omega

/-- The sequence of a character leads to whatever `stringNext` makes of its code, and the operands stay. -/
theorem AtCharacter.runs_of_stringNext (hat : AtCharacter str b c rest s)
    (hseq : sequenceEnds (.sendString true str b) o s) :
    ∃ x : Seq, ∀ t, stringNext o.code (s.polled .main x o.events o.bus o.clock) = some t →
      runs (.sendString true str b) s t ∧ mainSeqKeeps s t := by
  obtain ⟨x, hbusy, hkont, hend⟩ := hseq
  refine ⟨x, fun t ht => ?_⟩
  obtain ⟨-, ⟨hq, hqc, hm, hk, hlatch⟩, -⟩ := stringNext_keeps ht
  exact ⟨hend t ((txEnd_of_sendString (hkont.trans hat.kont) _).trans ht),
    hq, hqc, hm.trans hbusy, hk.trans hkont, hlatch⟩

/-- A character that fails ends the string (R180). -/
theorem AtCharacter.ends_of_failure (hat : AtCharacter str b c rest s) (hc : o.code ≠ .ok)
    (hseq : sequenceEnds (.sendString true str b) o s) : stringEnds (.sendString true str b) o s := by
  obtain ⟨x, hend⟩ := hat.runs_of_stringNext hseq
  obtain ⟨hrun, hkeeps⟩ := hend _ (stringNext_eq_some.2 (.inl ⟨hc, rfl⟩))
  exact ⟨_, hrun, hat.ran_of_keeps hkeeps, rfl, by and_intros <;> rfl⟩

/-- The last character, once sent, ends the string (R180). -/
theorem AtCharacter.ends_of_last (hat : AtCharacter str b c [] s) (hc : o.code = .ok)
    (hseq : sequenceEnds (.sendString true str b) o s) : stringEnds (.sendString true str b) o s := by
  obtain ⟨hstr, -⟩ := hat.latch
  have hlast : s.latch.idx + 1 = s.latch.str.length := by rw [hstr, ← hat.length, List.length_nil]
  obtain ⟨x, hend⟩ := hat.runs_of_stringNext hseq
  obtain ⟨hrun, hkeeps⟩ := hend _ (stringNext_eq_some.2 (.inr (.inl ⟨hc, hlast, rfl⟩)))
  exact ⟨_, hrun, hat.ran_of_keeps hkeeps, congrArg _ hc.symm, by and_intros <;> rfl⟩

/-- A character, once sent, is followed by the next, at the start of its own poll (R180, R182). -/
theorem AtCharacter.next (hat : AtCharacter str b c (c' :: rest) s) (hc : o.code = .ok)
    (hseq : sequenceEnds (.sendString true str b) o s) :
    ∃ u, runs (.sendString true str b) s u ∧ AtCharacter str b c' rest u ∧ doneAs s u (o.asOp none) := by
  obtain ⟨hstr, harg⟩ := hat.latch
  have hdrop : str.drop (s.latch.idx + 1) = c' :: rest := by
    rw [← List.drop_drop, hat.left, List.drop_one, List.tail_cons]
  have hnext : s.latch.str[s.latch.idx + 1]? = some c' := by rw [hstr, ← List.head?_drop, hdrop, List.head?_cons]
  obtain ⟨x, hend⟩ := hat.runs_of_stringNext hseq
  obtain ⟨hrun, hkeeps⟩ := hend _ (stringNext_eq_some.2 (.inr (.inr ⟨hc, c', hnext, rfl⟩)))
  have ⟨_, _, _, hkont, _⟩ := hkeeps
  exact ⟨_, hrun, ⟨hat.ran_of_keeps hkeeps, hkont.trans hat.kont, by rw [← harg]; rfl, rfl, hdrop⟩,
    by and_intros <;> rfl⟩

end

/-! ### The string against its pseudocode -/

/-- How the pseudocode of a string that is not empty ends: with its first character, or with the rest (R180). -/
theorem stringSpec_cons_eq_some {k : Cfg} {b : Word} {c : Byte} {rest : List Byte} {bus clock : List Word} {o : SeqOut}
    (h : stringSpec k b (c :: rest) bus clock = some o) :
    ∃ o₁, sendSeqSpec k .main b c bus clock = some o₁
      ∧ ((o₁.code ≠ .ok ∧ o = o₁)
        ∨ (o₁.code = .ok ∧ ∃ o₂, stringSpec k b rest o₁.bus o₁.clock = some o₂
            ∧ o = { o₂ with events := o₁.events ++ o₂.events })) := by
  rw [stringSpec] at h
  split at h
  · cases h
  · rename_i o₁ ho₁
    refine ⟨o₁, ho₁, ?_⟩
    split at h
    · obtain ⟨o₂, ho₂, rfl⟩ := Option.map_eq_some_iff.1 h
      exact .inr ⟨‹_›, o₂, ho₂, rfl⟩
    · cases h
      exact .inl ⟨‹_›, rfl⟩

theorem AtCharacter.sequenceEnds_of_spec {str rest : List Byte} {b : Word} {c : Byte} {o : SeqOut} {s : State}
    (hat : AtCharacter str b c rest s)
    (h : sendSeqSpec s.cfg .main b c s.busAnswers s.clockAnswers = some o) :
    sequenceEnds (.sendString true str b) o s := by
  obtain ⟨-, rfl⟩ := hat.latch
  obtain rfl := hat.char
  exact sendSeqSpec_runs hat.ran hat.phase h

/-- The rest of a string ends as its pseudocode says (R180). -/
theorem stringSpec_runs {str rest : List Byte} {b : Word} {c : Byte} {o : SeqOut} {s : State}
    (hat : AtCharacter str b c rest s)
    (h : stringSpec s.cfg b (c :: rest) s.busAnswers s.clockAnswers = some o) :
    stringEnds (.sendString true str b) o s := by
  induction rest generalizing c o s with
  | nil =>
    obtain ⟨o₁, ho₁, ⟨hc, rfl⟩ | ⟨hc, o₂, ho₂, rfl⟩⟩ := stringSpec_cons_eq_some h
    · exact hat.ends_of_failure hc (hat.sequenceEnds_of_spec ho₁)
    · cases ho₂
      have hlast := hat.ends_of_last hc (hat.sequenceEnds_of_spec ho₁)
      simpa [stringEnds, SeqOut.asOp, hc] using hlast
  | cons c' rest ih =>
    obtain ⟨o₁, ho₁, ⟨hc, rfl⟩ | ⟨hc, o₂, ho₂, rfl⟩⟩ := stringSpec_cons_eq_some h
    · exact hat.ends_of_failure hc (hat.sequenceEnds_of_spec ho₁)
    · obtain ⟨u, hrun, hat', hd⟩ := hat.next hc (hat.sequenceEnds_of_spec ho₁)
      obtain ⟨hcfg, hbus, hclock⟩ := hd.script
      exact .after hrun hd (ih hat' (by rw [hcfg, hbus, hclock]; exact ho₂))

/-! ### Whole runs -/

/-- A string that is not empty is accepted at its first character (40_common R120, R126). -/
theorem exec_sendString_accept {c : Byte} {rest : List Byte} {b : Word} {s : State} (hidle : bothIdle s) :
    ∃ u, exec (.sendString true (c :: rest) b) s = .next u ∧ AtCharacter (c :: rest) b c rest u
      ∧ doneAs s u (SeqOut.asOp ⟨.ok, 0#8, [], s.busAnswers, s.clockAnswers⟩ none) := by
  have ⟨_, hq⟩ := hidle
  obtain ⟨haccept, -⟩ := idleContextAccepts s
  obtain ⟨-, -, -, -, hstring, -⟩ := haccept hidle
  exact ⟨_, hstring c rest b, ⟨⟨hq, rfl, running_sendString_iff.2 ⟨rfl, rfl, rfl, rfl⟩, by simp [Poll.ops, Instr.op]⟩,
    rfl, rfl, rfl, rfl⟩, by simp [doneAs, SeqOut.asOp]⟩

/-- From `DONE` one more event completes the operation (40_common R120(4)). -/
theorem stringEnds.completesAs {str : List Byte} {b : Word} {o : SeqOut} {s : State}
    (h : stringEnds (.sendString true str b) o s) : completesAs (.sendString true str b) s (o.asOp none) := by
  obtain ⟨u, ⟨n, hrun⟩, ⟨hq, hm, hr, -⟩, hp, hd⟩ := h
  obtain ⟨hop, -⟩ := running_sendString_iff.1 hr
  exact completesAs_of_doneAs hrun hq hm hr hp (by simp [completionOf, hop, SeqOut.asOp]) hd

/-- A null string, whatever its payload, is rejected at the acceptance (R180, 30_encoding R96). -/
theorem nullString_completesAs {s : State} (hidle : bothIdle s) (str : List Byte) (b : Word) :
    completesAs (.sendString false str b) s ⟨.invalidParam, none, none, none, [], s.busAnswers, s.clockAnswers⟩ := by
  have ⟨_, hq⟩ := hidle
  obtain ⟨haccept, -⟩ := idleContextAccepts s
  obtain ⟨-, -, -, -, -, -, hnull, -⟩ := haccept hidle
  have hdone := exec_of_done (i := .sendString false [] b) (e := .invalidParam)
    (s := { s with
      latch := { op := 4#4, p := false, c := 0#8, arg := b, str := [], idx := 0 }
      m := { s.m with busy := true, phase := .done .invalidParam } }) hq rfl rfl rfl
  exact ⟨2, _, (execN_succ (hnull str b) 1).trans (execN_succ hdone 0), by and_intros <;> simp [completionOf]⟩

/-- An empty string is done at the acceptance (R180). -/
theorem emptyString_ends {s : State} (hidle : bothIdle s) (b : Word) :
    stringEnds (.sendString true [] b) ⟨.ok, 0#8, [], s.busAnswers, s.clockAnswers⟩ s := by
  have ⟨_, hq⟩ := hidle
  obtain ⟨haccept, -⟩ := idleContextAccepts s
  obtain ⟨-, -, -, -, -, hempty, -⟩ := haccept hidle
  exact ⟨_, .head (hempty b) (.refl ..), ⟨hq, rfl, rfl, by simp [Poll.ops, Instr.op]⟩, rfl,
    by and_intros <;> simp [SeqOut.asOp]⟩

/-- Settles O31: a null string is rejected at the acceptance, an empty one is done, and any other is sent. -/
theorem sendStringRunsItsPseudocode : Obligations.SendStringRunsItsPseudocode := by
  intro s p str b o hidle h
  cases p with
  | false =>
    cases h
    exact nullString_completesAs hidle str b
  | true =>
    obtain ⟨o, ho, rfl⟩ := Option.map_eq_some_iff.1 h
    refine stringEnds.completesAs ?_
    cases str with
    | nil =>
      cases ho
      exact emptyString_ends hidle b
    | cons c rest =>
      obtain ⟨u, he, hat, hd⟩ := exec_sendString_accept hidle
      obtain ⟨hcfg, hbus, hclock⟩ := hd.script
      exact stringEnds.after (.head he (.refl ..)) hd (stringSpec_runs hat (by rw [hcfg, hbus, hclock]; exact ho))

end Sys2Proof.Machine
end

section
/-! SUPPORT. 44_send_string R183: what `SEND_STRING` writes to `DATA`, whatever the answers, and that a string is sent
whole where the transmit FIFO is always ready and no error is shown. -/

namespace Sys2Proof.Machine

/-! ### The writes to `DATA` -/

theorem dataWrites_append (k : Cfg) (es fs : List Event) :
    dataWrites k (es ++ fs) = dataWrites k es ++ dataWrites k fs := List.filterMap_append

theorem sendCharLooks.dataWrites {k : Cfg} {e : Event} (h : sendCharLooks k e) : dataWrites k [e] = [] := by
  obtain ⟨v, rfl⟩ | ⟨r, v, -, rfl⟩ := h <;> rfl

theorem dataWrites_data (k : Cfg) (c : Byte) :
    dataWrites k [.write .main (Cfg.addr k .data) (c.setWidth 32)] = [c] := by
  simp [dataWrites, lowByte_eq_setWidth]

/-! ### An event of a running string -/

theorem pollStart_mem_sendPhases (b : Word) : (if b = 0#32 then Phase.tRFlag else .tStart) ∈ sendPhases := by
  split <;> decide

theorem eq_of_txEnd_string_failure {code : ErrorStatus} {s t : State} (h : txEnd .main code s = some t)
    (hk : s.m.kont = some .sendString) (hc : code ≠ .ok) : t = goto .main (.done code) s := by
  rw [txEnd_of_sendString hk, stringNext_eq_some.2 (.inl ⟨hc, rfl⟩)] at h
  exact (Option.some.inj h).symm

/-- An event of `SEND_STRING` looks, and the character goes on or fails; or it writes the character, and the string is
done or goes on at the next (R180). -/
theorem sendEvent_of_string {s t : State} (hk : s.m.kont = some .sendString) (h : sendEvent .main s = some t) :
    (∃ e, sendCharLooks s.cfg e ∧ t.history = s.history ++ [e] ∧ t.latch.idx = s.latch.idx
        ∧ (t.m.phase ∈ sendPhases ∨ ∃ code, code ≠ .ok ∧ t.m.phase = .done code))
      ∨ (t.history = s.history ++ [.write .main (Cfg.addr s.cfg .data) (s.latch.c.setWidth 32)]
        ∧ t.latch.idx = s.latch.idx + 1
        ∧ (t.m.phase ∈ sendPhases ∨ (t.m.phase = .done .ok ∧ s.latch.idx + 1 = s.latch.str.length))) := by
  obtain ⟨-, rfl⟩ | ⟨-, rfl⟩ | ⟨-, -, rfl⟩ | ⟨-, -, he⟩ | ⟨-, -, rfl⟩ | ⟨-, -, he⟩ | ⟨-, he⟩ := sendEvent_next h
  · exact .inl ⟨_, .inl ⟨_, rfl⟩, rfl, rfl, .inl (by simp [sendPhases])⟩
  · refine .inl ⟨_, .inr ⟨.flag, _, by decide, rfl⟩, rfl, rfl, .inl ?_⟩
    rw [goto_main_m]
    split
    · split <;> simp [sendPhases]
    · simp [sendPhases]
  · exact .inl ⟨_, .inl ⟨_, rfl⟩, rfl, rfl, .inl (by simp [sendPhases])⟩
  · obtain rfl := eq_of_txEnd_string_failure he hk nofun
    exact .inl ⟨_, .inl ⟨_, rfl⟩, rfl, rfl, .inr ⟨.timeout, nofun, rfl⟩⟩
  · exact .inl ⟨_, .inr ⟨.rsrEcr, _, by decide, rfl⟩, rfl, rfl, .inl (by simp [sendPhases])⟩
  · obtain rfl := eq_of_txEnd_string_failure he hk nofun
    exact .inl ⟨_, .inr ⟨.rsrEcr, _, by decide, rfl⟩, rfl, rfl, .inr ⟨.hardwareError, nofun, rfl⟩⟩
  · rw [txEnd_of_sendString (s := writeReg ..) hk] at he
    obtain ⟨hc, -⟩ | ⟨-, hlast, rfl⟩ | ⟨-, c, -, rfl⟩ := stringNext_eq_some.1 he
    · exact absurd rfl hc
    · exact .inr ⟨rfl, rfl, .inr ⟨rfl, hlast⟩⟩
    · exact .inr ⟨rfl, rfl, .inl (pollStart_mem_sendPhases _)⟩

/-! ### The progress of a string -/

/-- Since `s` the first `j` bytes of `str` have been written to `DATA`: those before `m.idx` while the string is being
sent; in `DONE` all of them exactly where the code is Ok (R180). -/
def stringProgress (s : State) (str : List Byte) (u : State) : Prop :=
  mainPhaseFits u ∧ u.cfg = s.cfg ∧ ∃ j es, j ≤ str.length ∧ u.history = s.history ++ es
    ∧ dataWrites s.cfg es = str.take j
    ∧ ((u.m.phase ∈ sendPhases ∧ j = u.latch.idx)
      ∨ ∃ code, u.m.phase = .done code ∧ (code = .ok ↔ j = str.length))

/-- Every event of the sequence keeps the progress. -/
theorem stringProgress.of_sendEvent {s u v : State} {str : List Byte} {b : Word} (hP : stringProgress s str u)
    (hr : running u = some (.sendString true str b)) (he : sendEvent .main u = some v) : stringProgress s str v := by
  obtain ⟨hfits, hcfg, j, es, hj, hhist, hwrites, hphase⟩ := hP
  obtain ⟨hop, -, hstr, -⟩ := running_sendString_iff.1 hr
  have hmem : u.m.phase ∈ sendPhases := phase_of_sendEvent he
  obtain ⟨-, rfl⟩ | ⟨code, hp, -⟩ := hphase
  case inr => simp [hp, sendPhases] at hmem
  have hsending : mainSending u := sending_of_phaseFits (c := .main) hfits hmem
  obtain ⟨hop', -⟩ | ⟨-, hk, hchar⟩ := hsending
  · simp [hop] at hop'
  obtain ⟨⟨hcfg', -⟩, -⟩ := sendEvent_main_keeps he
  rw [hstr] at hchar
  have hlt := (List.getElem?_eq_some_iff.1 hchar).1
  refine ⟨sendEvent_fits (c := .main) hfits he, hcfg'.trans hcfg, ?_⟩
  obtain ⟨e, hlooks, hhist', hidx, hend⟩ | ⟨hhist', hidx, hend⟩ := sendEvent_of_string hk he
  · refine ⟨u.latch.idx, es ++ [e], hj, by rw [hhist', hhist, List.append_assoc], ?_, ?_⟩
    · rw [dataWrites_append, hwrites, ← hcfg, hlooks.dataWrites, List.append_nil]
    · obtain hmem' | ⟨code, hc, hp⟩ := hend
      · exact .inl ⟨hmem', hidx.symm⟩
      · exact .inr ⟨code, hp, iff_of_false hc hlt.ne⟩
  · refine ⟨u.latch.idx + 1, es ++ [_], hlt, by rw [hhist', hhist, List.append_assoc], ?_, ?_⟩
    · rw [dataWrites_append, hwrites, hcfg, dataWrites_data, List.take_add_one, hchar, Option.toList_some]
    · obtain hmem' | ⟨hp, hlast⟩ := hend
      · exact .inl ⟨hmem', hidx.symm⟩
      · exact .inr ⟨.ok, hp, iff_of_true rfl (hstr ▸ hlast)⟩

/-- The acceptance begins the progress. -/
theorem exec_sendString_progress {s : State} (hidle : bothIdle s) (str : List Byte) (b : Word) :
    ∃ u, exec (.sendString true str b) s = .next u ∧ stringProgress s str u ∧ u.m.busy = true
      ∧ u.results = s.results := by
  have ⟨hm, hq⟩ := hidle
  obtain ⟨⟨hcfg, -, -, -, hresults, -⟩, -, hbusy, -, -, -, hidx⟩ :=
    sendStringStart_keeps (accept (.sendString true str b) s)
  have hhist := sendStringStart_history (accept (.sendString true str b) s)
  refine ⟨_, mainEvent_accept hq hm, ⟨sendStringStart_fits rfl rfl, hcfg, 0, [], Nat.zero_le _, ?_, rfl, ?_⟩, hbusy,
    hresults⟩
  · rw [List.append_nil]
    exact hhist
  · cases str with
    | nil => exact .inr ⟨.ok, rfl, iff_of_true rfl rfl⟩
    | cons c rest =>
      refine .inl ⟨?_, hidx.symm⟩
      simp [sendStringStart, accept, Instr.p, Instr.payload, txStart_eq, pollStart_mem_sendPhases]

/-! ### A run up to its completion -/

/-- One event of `SEND_STRING`: nothing, the acceptance, the completion, or an event of the sequence. -/
theorem exec_sendString_next {str : List Byte} {b : Word} {s t : State}
    (h : exec (.sendString true str b) s = .next t) :
    t = s ∨ (s.m.busy = false ∧ t.m.busy = true ∧ t.results = s.results)
      ∨ (s.m.busy = true ∧ completesMain s t)
      ∨ (s.m.busy = true ∧ running s = some (.sendString true str b) ∧ sendEvent .main s = some t) := by
  obtain ⟨rfl, -⟩ | ⟨-, hm, rfl⟩ | ⟨-, hm, hr, he⟩ := mainEvent_next h
  · exact .inl rfl
  · obtain ⟨⟨-, -, -, -, hresults, -⟩, -, hbusy, -⟩ := sendStringStart_keeps (accept (.sendString true str b) s)
    exact .inr (.inl ⟨hm, hbusy, hresults⟩)
  · obtain hdone | he := sendCharEvent_next (sendStringEvent_eq s ▸ he)
    · exact .inr (.inr (.inl ⟨hm, hdone⟩))
    · exact .inr (.inr (.inr ⟨hm, hr, he⟩))

/-- How many times the operation has been accepted: the completions reported, and the one that is due. -/
def acceptances (s : State) : Nat := s.results.length + s.m.busy.toNat

theorem acceptances_of_sendEvent {s t : State} (h : sendEvent .main s = some t) : acceptances t = acceptances s := by
  obtain ⟨⟨-, -, -, -, hresults, -⟩, ⟨-, -, hbusy, -⟩, -⟩ := sendEvent_main_keeps h
  rw [acceptances, hbusy, hresults, acceptances]

theorem acceptances_le_of_execN {str : List Byte} {b : Word} {n : Nat} {s t : State}
    (h : execN (.sendString true str b) n s = .next t) : acceptances s ≤ acceptances t := by
  induction n generalizing s with
  | zero => cases h; exact le_rfl
  | succ n ih =>
    obtain ⟨u, he, hrest⟩ := exec_of_execN_succ h
    refine le_trans ?_ (ih hrest)
    obtain rfl | ⟨hm, hm', hresults⟩ | ⟨hm, code, -, rfl⟩ | ⟨hm, -, he⟩ := exec_sendString_next he
    · exact le_rfl
    · simp [acceptances, hm, hm', hresults]
    · simp [acceptances, hm]
    · exact (acceptances_of_sendEvent he).ge

/-- A run of an idle block that accepts nothing is no run. -/
theorem eq_of_execN_of_idle {str : List Byte} {b : Word} {n : Nat} {s t : State}
    (h : execN (.sendString true str b) n s = .next t) (hs : s.m.busy = false)
    (hle : acceptances t ≤ s.results.length) : t = s := by
  induction n with
  | zero => cases h; rfl
  | succ n ih =>
    obtain ⟨u, he, hrest⟩ := exec_of_execN_succ h
    obtain rfl | ⟨-, hm', hresults⟩ | ⟨hm, -⟩ | ⟨hm, -⟩ := exec_sendString_next he
    · exact ih hrest
    · have hmono := acceptances_le_of_execN hrest
      rw [acceptances, hm', hresults, Bool.toNat_true] at hmono
      omega
    · simp [hs] at hm
    · simp [hs] at hm

/-- A run that reports one completion ends with that of the string in progress. -/
theorem completion_of_execN {s u t : State} {str : List Byte} {b : Word} {n : Nat} (hP : stringProgress s str u)
    (hu : u.m.busy = true) (h : execN (.sendString true str b) n u = .next t) (ht : t.m.busy = false)
    (hle : acceptances t ≤ acceptances u) : ∃ v, stringProgress s str v ∧ completesMain v t := by
  induction n generalizing u with
  | zero => cases h; simp [hu] at ht
  | succ n ih =>
    obtain ⟨v, he, hrest⟩ := exec_of_execN_succ h
    obtain rfl | ⟨hm, -⟩ | ⟨-, hdone⟩ | ⟨-, hr, he⟩ := exec_sendString_next he
    · exact ih hP hu hrest hle
    · simp [hu] at hm
    · obtain ⟨code, -, hv⟩ := id hdone
      obtain rfl := eq_of_execN_of_idle hrest (by rw [hv]; rfl) (by simpa [hv, acceptances, hu] using hle)
      exact ⟨u, hP, hdone⟩
    · obtain ⟨-, ⟨-, -, hbusy, -⟩, -⟩ := sendEvent_main_keeps he
      exact ih (hP.of_sendEvent hr he) (hbusy.trans hu) hrest (by rwa [acceptances_of_sendEvent he])

/-- Settles O59: the acceptance begins the progress, the run keeps it up to its one completion. -/
theorem sendStringWritesPrefixInOrder : Obligations.SendStringWritesPrefixInOrder := by
  intro s t str b n r hidle h ht hresults
  cases n with
  | zero => cases h; simp at hresults
  | succ n =>
    obtain ⟨u, he, hP, hu, hsame⟩ := exec_sendString_progress hidle str b
    have hrest := (execN_succ he n).symm.trans h
    obtain ⟨v, ⟨-, -, j, es, hj, hhist, hwrites, hphase⟩, code, hp, rfl⟩ :=
      completion_of_execN hP hu hrest ht (by simp [acceptances, hu, ht, hresults, hsame])
    obtain ⟨hmem, -⟩ | ⟨code', hp', hok⟩ := hphase
    · simp [hp, sendPhases] at hmem
    obtain rfl : code' = code := Phase.done.inj (hp'.symm.trans hp)
    obtain ⟨-, hr⟩ := List.append_inj' hresults rfl
    obtain rfl : completionOf code' v = r := List.singleton_inj.1 hr
    obtain ⟨-, hinj, -⟩ := errorStatusCodes
    refine ⟨j, hj, ?_, Iff.trans ⟨hinj code' .ok, congrArg ErrorStatus.code⟩ hok⟩
    rw [complete_history, hhist, List.drop_left, hwrites]

/-! ### Where the transmit FIFO is always ready and no error is shown -/

/-- The next answers let `n` characters through: each flag read has `FLAG_TXFF` clear, and each status read no bit of
`RSR_ANY` set (R183). -/
def readyFor (k : Cfg) (n : Nat) (bus : List Word) : Prop :=
  2 * n ≤ bus.length ∧ ∀ j < n, ∀ v, (bus[2 * j]? = some v → v &&& k.flagTxff = 0#32)
    ∧ (bus[2 * j + 1]? = some v → v &&& k.rsrAny = 0#32)

theorem readyFor_succ {k : Cfg} {n : Nat} {bus : List Word} (h : readyFor k (n + 1) bus) :
    ∃ f v bus', bus = f :: v :: bus' ∧ f &&& k.flagTxff = 0#32 ∧ v &&& k.rsrAny = 0#32 ∧ readyFor k n bus' := by
  obtain ⟨hlen, hready⟩ := h
  match bus, hlen, hready with
  | f :: v :: bus', hlen, hready =>
    refine ⟨f, v, bus', rfl, (hready 0 n.succ_pos f).1 rfl, (hready 0 n.succ_pos v).2 rfl, ?_, fun j hj w => ?_⟩
    · simp only [List.length_cons] at hlen
      omega
    · simpa [Nat.mul_add] using hready (j + 1) (Nat.succ_lt_succ hj) w

/-- An event before the sequence goes on. -/
theorem sequenceEnds.head {i : Instr} {o : SeqOut} {x : Seq} {es : List Event} {bus clock : List Word} {s : State}
    (he : exec i s = .next (s.polled .main x es bus clock)) (hbusy : x.busy = s.m.busy) (hkont : x.kont = s.m.kont)
    (h : sequenceEnds i o (s.polled .main x es bus clock)) :
    sequenceEnds i { o with events := es ++ o.events } s := by
  obtain ⟨y, hybusy, hykont, hend⟩ := h
  refine ⟨y, hybusy.trans hbusy, hykont.trans hkont, fun t ht => .head he (hend t ?_)⟩
  rwa [polled_polled]

/-- The write of a character is the last event of its sequence (R160). -/
theorem sequenceEnds_of_tWData {i : Instr} {s : State} (hran : Poll.tx.ranBy .main i s) (hp : s.m.phase = .tWData) :
    ∃ es, sequenceEnds i ⟨.ok, 0#8, es, s.busAnswers, s.clockAnswers⟩ s := by
  refine ⟨[.write .main (Cfg.addr s.cfg .data) (s.latch.c.setWidth 32)], s.m, rfl, rfl, fun t ht => ?_⟩
  have he := (sendEvent_of_tWData (c := .main) hp).trans ht
  exact .head (exec_of_poll hran (by rw [seq_main, hp]; decide) he) (.refl ..)

/-- From a status read that shows no error, the character is sent (R160). -/
theorem sequenceEnds_of_tRRsr {i : Instr} {v : Word} {bus : List Word} {s : State} (hran : Poll.tx.ranBy .main i s)
    (hp : s.m.phase = .tRRsr) (hbus : s.busAnswers = v :: bus) (hv : v &&& s.cfg.rsrAny = 0#32) :
    ∃ es, sequenceEnds i ⟨.ok, 0#8, es, bus, s.clockAnswers⟩ s := by
  have hclean := exec_cleanStatus hran hp (by rwa [busAnswer_of_cons hbus])
  rw [busAnswer_of_cons hbus, hbus, List.tail_cons] at hclean
  obtain ⟨es, hwrite⟩ := sequenceEnds_of_tWData
    (hran.polled (x := { s.m with tmp := v, phase := .tWData }) (bus := bus) (clock := s.clockAnswers)
      [.read .main (Cfg.addr s.cfg .rsrEcr) v] rfl) rfl
  exact ⟨_, .head hclean rfl rfl hwrite⟩

/-- From a flag read that shows room, the character is sent where the status read shows no error (R160). -/
theorem sequenceEnds_of_tRFlag {i : Instr} {f v : Word} {bus : List Word} {s : State} (hran : Poll.tx.ranBy .main i s)
    (hp : s.m.phase = .tRFlag) (hbus : s.busAnswers = f :: v :: bus) (hf : f &&& s.cfg.flagTxff = 0#32)
    (hv : v &&& s.cfg.rsrAny = 0#32) :
    ∃ es, sequenceEnds i ⟨.ok, 0#8, es, bus, s.clockAnswers⟩ s := by
  have hroom : anySet f s.cfg.flagTxff = false := anySet_eq_false_iff.2 hf
  have hphase : (Poll.tx.afterFlag .main f s).phase = .tRRsr := by
    simp [Poll.afterFlag, Poll.mask, Poll.ready, hroom]
  obtain ⟨es, hrest⟩ := sequenceEnds_of_tRRsr
    (hran.polled (x := Poll.tx.afterFlag .main f s) (bus := v :: bus) (clock := s.clockAnswers)
      [.read .main (Cfg.addr s.cfg .flag) f] rfl) hphase rfl hv
  exact ⟨_, .head (exec_poll_flag_of_cons hran hp hbus) rfl rfl hrest⟩

/-- A ready character is sent, whatever the clock answers (R160, R183). -/
theorem AtCharacter.sequenceEnds_of_ready {str rest : List Byte} {b : Word} {c : Byte} {f v : Word} {bus : List Word}
    {s : State} (hat : AtCharacter str b c rest s) (hbus : s.busAnswers = f :: v :: bus)
    (hf : f &&& s.cfg.flagTxff = 0#32) (hv : v &&& s.cfg.rsrAny = 0#32) :
    ∃ o : SeqOut, o.code = .ok ∧ o.bus = bus ∧ sequenceEnds (.sendString true str b) o s := by
  have hp := hat.phase
  split at hp
  · obtain ⟨es, hends⟩ := sequenceEnds_of_tRFlag hat.ran hp hbus hf hv
    exact ⟨_, rfl, rfl, hends⟩
  · have hstart := exec_poll_start hat.ran hp
    obtain ⟨es, hends⟩ := sequenceEnds_of_tRFlag (hat.ran.polled (x := { s.m with
      tStart := clockAnswer .main s, phase := .tRFlag }) (bus := s.busAnswers) (clock := s.clockAnswers.tail)
      [.now .main (clockAnswer .main s)] rfl) rfl hbus hf hv
    exact ⟨_, rfl, rfl, .head hstart rfl rfl hends⟩

/-- The rest of a string is sent whole (R183). -/
theorem AtCharacter.ends_of_ready {str rest : List Byte} {b : Word} {c : Byte} {s : State}
    (hat : AtCharacter str b c rest s) (hready : readyFor s.cfg (rest.length + 1) s.busAnswers) :
    ∃ o : SeqOut, o.code = .ok ∧ stringEnds (.sendString true str b) o s := by
  induction rest generalizing c s with
  | nil =>
    obtain ⟨f, v, bus, hbus, hf, hv, -⟩ := readyFor_succ hready
    obtain ⟨o, hc, -, hseq⟩ := hat.sequenceEnds_of_ready hbus hf hv
    exact ⟨o, hc, hat.ends_of_last hc hseq⟩
  | cons c' rest ih =>
    obtain ⟨f, v, bus, hbus, hf, hv, hrest⟩ := readyFor_succ hready
    obtain ⟨o, hc, rfl, hseq⟩ := hat.sequenceEnds_of_ready hbus hf hv
    obtain ⟨u, hrun, hat', hd⟩ := hat.next hc hseq
    obtain ⟨hcfg, hbus', -⟩ := hd.script
    obtain ⟨o', hc', hends⟩ := ih hat' (by rw [hcfg, hbus']; exact hrest)
    exact ⟨{ o' with events := o.events ++ o'.events }, hc', .after hrun hd hends⟩

/-- A string all of whose characters are let through ends with Ok (R183). -/
theorem ready_string_ends {s : State} {str : List Byte} (hidle : bothIdle s) (b : Word)
    (hready : readyFor s.cfg str.length s.busAnswers) :
    ∃ o : SeqOut, o.code = .ok ∧ stringEnds (.sendString true str b) o s := by
  cases str with
  | nil => exact ⟨_, rfl, emptyString_ends hidle b⟩
  | cons c rest =>
    obtain ⟨u, he, hat, hd⟩ := exec_sendString_accept hidle
    obtain ⟨hcfg, hbus, -⟩ := hd.script
    obtain ⟨o, hc, hends⟩ := hat.ends_of_ready (by rw [hcfg, hbus]; exact hready)
    exact ⟨{ o with events := [] ++ o.events }, hc, .after (.head he (.refl ..)) hd hends⟩

/-- Settles O60: the string ends with Ok, and a run that does has written all of it (O59). -/
theorem readyStringIsSentWhole : Obligations.ReadyStringIsSentWhole := by
  intro s str b hidle hlen hready
  obtain ⟨o, hc, hends⟩ := ready_string_ends hidle b ⟨hlen, hready⟩
  obtain ⟨n, t, hrun, hm, -, hhist, -, hresults, -⟩ := hends.completesAs
  obtain ⟨j, -, hwrites, hok⟩ := sendStringWritesPrefixInOrder s t str b n _ hidle hrun hm hresults
  obtain rfl : j = str.length := hok.1 (congrArg ErrorStatus.code hc)
  rw [hhist, List.drop_left, List.take_length] at hwrites
  exact ⟨_, hends.completesAs, hc, hwrites⟩

end Sys2Proof.Machine
end

section
/-! SUPPORT. 45_interrupt_mask and 46_error_status: the operations with no operands event by event (R190, R191, R200,
R201, 40_common R126), their whole runs, and what an event of theirs leaves alone. -/

namespace Sys2Proof.Machine

/-! ### The two operations on the interrupt mask -/

/-- `i` is `ENABLE_INTERRUPTS` or `DISABLE_INTERRUPTS`, and `value` gives the word it writes to `IMSC` (R190, R191). -/
def updatesMask (i : Instr) (value : Cfg → Word → Word) : Prop :=
  (i = .enableInterrupts ∧ value = imscEnabling) ∨ (i = .disableInterrupts ∧ value = imscDisabling)

theorem updatesMask_enable : updatesMask .enableInterrupts imscEnabling := .inl ⟨rfl, rfl⟩

theorem updatesMask_disable : updatesMask .disableInterrupts imscDisabling := .inr ⟨rfl, rfl⟩

theorem imscEnabling_eq (k : Cfg) (v : Word) :
    imscEnabling k v = if k.imscUpdate = .rmw then v ||| k.intRx else k.intRx := by
  unfold imscEnabling
  cases k.imscUpdate <;> rfl

theorem imscDisabling_eq (k : Cfg) (v : Word) :
    imscDisabling k v = if k.imscUpdate = .rmw then v &&& ~~~k.intRx else 0#32 := by
  unfold imscDisabling
  cases k.imscUpdate <;> rfl

/-- The mask `DISABLE_INTERRUPTS` writes does not enable the receive interrupt. -/
theorem imscDisabling_and_intRx (k : Cfg) (v : Word) : imscDisabling k v &&& k.intRx = 0#32 := by
  rw [imscDisabling_eq]
  split
  · rw [BitVec.and_assoc, BitVec.and_comm (~~~k.intRx), BitVec.and_not_self]
    exact BitVec.and_zero
  · exact BitVec.zero_and

section
variable {i : Instr} {value : Cfg → Word → Word} (hi : updatesMask i value)
include hi

theorem updatesMask.exec_eq (s : State) : exec i s = mainEvent i maskStart (maskEvent value) s := by
  obtain ⟨rfl, rfl⟩ | ⟨rfl, rfl⟩ := hi <;> rfl

theorem updatesMask.opSpec_eq (k : Cfg) (bus clock : List Word) :
    opSpec k i bus clock = maskSpec k value bus clock := by
  obtain ⟨rfl, rfl⟩ | ⟨rfl, rfl⟩ := hi <;> rfl

/-- D17: without a read of `IMSC`, what `tmp` holds does not matter. -/
theorem updatesMask.value_of_overwrite {k : Cfg} (hk : k.imscUpdate = .overwrite) (v : Word) :
    value k v = value k 0#32 := by
  obtain ⟨-, rfl⟩ | ⟨-, rfl⟩ := hi
  · rw [imscEnabling, imscEnabling, hk]
  · rw [imscDisabling, imscDisabling, hk]

theorem updatesMask.running_accept (s : State) : running (accept i s) = some i := by
  obtain ⟨rfl, -⟩ | ⟨rfl, -⟩ := hi <;> rfl

/-- No operation on the mask reports `OUT_CHAR` (30_encoding R98). -/
theorem updatesMask.op_ne_getChar : i.op ≠ 3#4 := by
  obtain ⟨rfl, -⟩ | ⟨rfl, -⟩ := hi <;> decide

end

/-! ### The events one by one -/

section
variable {s : State} (hq : s.q.busy = false) (hm : s.m.busy = true)
include hq hm

/-- `M_R_IMSC`: the mask is read. -/
theorem exec_mRImsc {i : Instr} {value : Cfg → Word → Word} (hi : updatesMask i value) (hr : running s = some i)
    (hp : s.m.phase = .mRImsc) : exec i s = .next (goto .main .mWImsc (readReg .main .imsc s)) :=
  (hi.exec_eq s).trans (mainEvent_event hq hm hr (by rw [maskEvent, hp]))

/-- `M_W_IMSC`: the mask is written. -/
theorem exec_mWImsc {i : Instr} {value : Cfg → Word → Word} (hi : updatesMask i value) (hr : running s = some i)
    (hp : s.m.phase = .mWImsc) :
    exec i s = .next (goto .main (.done .ok) (writeReg .main .imsc (value s.cfg s.m.tmp) s)) :=
  (hi.exec_eq s).trans (mainEvent_event hq hm hr (by rw [maskEvent, hp]))

/-- `E_W_ECR`: the recorded errors are cleared. -/
theorem exec_eWEcr (hr : running s = some .clearErrors) (hp : s.m.phase = .eWEcr) :
    exec .clearErrors s = .next (goto .main (.done .ok) (writeReg .main .rsrEcr Word.allOnes s)) :=
  mainEvent_event hq hm hr (by rw [clearErrorsEvent, hp])

/-- `Q_R_RSR`: the recorded errors are read and decoded (R122). -/
theorem exec_qRRsr (hr : running s = some .getErrorStatus) (hp : s.m.phase = .qRRsr) :
    exec .getErrorStatus s = .next
      (goto .main (.done (decodeRxStatus s.cfg (busAnswer .main .rsrEcr s))) (readReg .main .rsrEcr s)) :=
  mainEvent_event hq hm hr (by rw [getErrorStatusEvent, hp]; rfl)

end

/-- Settles O23: the rows of the four operations, the written mask by the form of `IMSC_UPDATE`. -/
theorem maskAndErrorEventsFollowTable : Obligations.MaskAndErrorEventsFollowTable := by
  intro s i hq hm hr
  refine ⟨?_, ?_, ?_, ?_, ?_⟩
  · rintro hi hp _ rfl
    obtain rfl | rfl := hi
    · exact exec_mRImsc hq hm updatesMask_enable hr hp
    · exact exec_mRImsc hq hm updatesMask_disable hr hp
  · rintro rfl hp
    rw [exec_mWImsc hq hm updatesMask_enable hr hp, imscEnabling_eq]
    rfl
  · rintro rfl hp
    rw [exec_mWImsc hq hm updatesMask_disable hr hp, imscDisabling_eq]
    rfl
  · rintro rfl hp
    exact exec_eWEcr hq hm hr hp
  · rintro rfl hp _ rfl
    exact exec_qRRsr hq hm hr hp

/-! ### Whole runs -/

/-- How the pseudocode of an operation on the mask ends, under each form of `IMSC_UPDATE` (R190, R191). -/
theorem maskSpec_eq_some {k : Cfg} {value : Cfg → Word → Word} {bus clock : List Word} {o : OpOut}
    (h : maskSpec k value bus clock = some o) :
    (k.imscUpdate = .overwrite
        ∧ o = ⟨.ok, none, none, none, [.write .main (Cfg.addr k .imsc) (value k 0#32)], bus, clock⟩)
      ∨ (k.imscUpdate = .rmw ∧ ∃ v bus', bus = v :: bus' ∧ o = ⟨.ok, none, none, none,
          [.read .main (Cfg.addr k .imsc) v, .write .main (Cfg.addr k .imsc) (value k v)], bus', clock⟩) := by
  unfold maskSpec at h
  split at h
  · cases h; exact .inl ⟨‹_›, rfl⟩
  · split at h <;> cases h
    exact .inr ⟨‹_›, _, _, rfl, rfl⟩

/-- The pseudocode of `GET_ERROR_STATUS` ends where there is an answer to its read (R201). -/
theorem getErrorStatusSpec_eq_some {k : Cfg} {bus clock : List Word} {o : OpOut}
    (h : opSpec k .getErrorStatus bus clock = some o) :
    ∃ v bus', bus = v :: bus' ∧ o = ⟨decodeRxStatus k v, none, none, none,
      [.read .main (Cfg.addr k .rsrEcr) v], bus', clock⟩ := by
  cases bus with
  | nil => cases h
  | cons v bus' => cases h; exact ⟨v, bus', rfl, rfl⟩

section
variable {i : Instr} {value : Cfg → Word → Word} {s : State} (hi : updatesMask i value) (hidle : bothIdle s)
include hi hidle

/-- The acceptance (R120): the read of `IMSC` comes next, or the write at once. -/
theorem exec_mask_accept :
    exec i s = .next (goto .main (if s.cfg.imscUpdate = .rmw then .mRImsc else .mWImsc) (accept i s)) := by
  obtain ⟨hm, hq⟩ := hidle
  exact (hi.exec_eq s).trans ((mainEvent_accept hq hm).trans (congrArg _ (maskStart_eq _)))

/-- Under `overwrite` the operation is one write. -/
theorem mask_completesAs_of_overwrite (hk : s.cfg.imscUpdate = .overwrite) :
    completesAs i s ⟨.ok, none, none, none, [.write .main (Cfg.addr s.cfg .imsc) (value s.cfg 0#32)],
      s.busAnswers, s.clockAnswers⟩ := by
  have ⟨_, hq⟩ := hidle
  have haccept := exec_mask_accept hi hidle
  rw [hk, if_neg nofun] at haccept
  have hwrite := exec_mWImsc (s := goto .main .mWImsc (accept i s)) hq rfl hi (hi.running_accept s) rfl
  refine completesAs_of_doneAs ((execN_succ haccept 1).trans (execN_succ hwrite 0)) hq rfl (hi.running_accept s) rfl
    (by simp [completionOf, accept, hi.op_ne_getChar]) ?_
  simp [doneAs, accept, hi.value_of_overwrite hk s.m.tmp]

/-- Under `rmw` the operation is a read and a write. -/
theorem mask_completesAs_of_rmw {v : Word} {bus : List Word} (hk : s.cfg.imscUpdate = .rmw)
    (hbus : s.busAnswers = v :: bus) :
    completesAs i s ⟨.ok, none, none, none,
      [.read .main (Cfg.addr s.cfg .imsc) v, .write .main (Cfg.addr s.cfg .imsc) (value s.cfg v)],
      bus, s.clockAnswers⟩ := by
  have ⟨_, hq⟩ := hidle
  have haccept := exec_mask_accept hi hidle
  rw [hk, if_pos rfl] at haccept
  have hread := exec_mRImsc (s := goto .main .mRImsc (accept i s)) hq rfl hi (hi.running_accept s) rfl
  have hv : busAnswer .main .imsc (goto .main .mRImsc (accept i s)) = v := busAnswer_of_cons hbus
  have hwrite := exec_mWImsc (s := goto .main .mWImsc (readReg .main .imsc (goto .main .mRImsc (accept i s))))
    hq rfl hi (hi.running_accept s) rfl
  refine completesAs_of_doneAs ((execN_succ haccept 2).trans ((execN_succ hread 1).trans (execN_succ hwrite 0))) hq rfl
    (hi.running_accept s) rfl (by simp [completionOf, accept, hi.op_ne_getChar]) ?_
  simp [doneAs, hv, hbus]

/-- `ENABLE_INTERRUPTS` and `DISABLE_INTERRUPTS` (R190, R191). -/
theorem mask_completesAs {o : OpOut} (h : opSpec s.cfg i s.busAnswers s.clockAnswers = some o) :
    completesAs i s o := by
  rw [hi.opSpec_eq] at h
  obtain ⟨hk, rfl⟩ | ⟨hk, v, bus, hbus, rfl⟩ := maskSpec_eq_some h
  · exact mask_completesAs_of_overwrite hi hidle hk
  · exact mask_completesAs_of_rmw hi hidle hk hbus

end

section
variable {s : State} (hidle : bothIdle s)
include hidle

/-- `CLEAR_ERRORS` is one write (R200). -/
theorem clearErrors_completesAs :
    completesAs .clearErrors s ⟨.ok, none, none, none, [.write .main (Cfg.addr s.cfg .rsrEcr) Word.allOnes],
      s.busAnswers, s.clockAnswers⟩ := by
  obtain ⟨hm, hq⟩ := hidle
  have haccept : exec .clearErrors s = .next (goto .main .eWEcr (accept .clearErrors s)) := mainEvent_accept hq hm
  have hwrite := exec_eWEcr (s := goto .main .eWEcr (accept .clearErrors s)) hq rfl rfl rfl
  exact completesAs_of_doneAs ((execN_succ haccept 1).trans (execN_succ hwrite 0)) hq rfl rfl rfl rfl
    (by and_intros <;> rfl)

/-- `GET_ERROR_STATUS` is one read, and returns what it decodes to (R201). -/
theorem getErrorStatus_completesAs {v : Word} {bus : List Word} (hbus : s.busAnswers = v :: bus) :
    completesAs .getErrorStatus s ⟨decodeRxStatus s.cfg v, none, none, none,
      [.read .main (Cfg.addr s.cfg .rsrEcr) v], bus, s.clockAnswers⟩ := by
  obtain ⟨hm, hq⟩ := hidle
  have haccept : exec .getErrorStatus s = .next (goto .main .qRRsr (accept .getErrorStatus s)) :=
    mainEvent_accept hq hm
  have hread := exec_qRRsr (s := goto .main .qRRsr (accept .getErrorStatus s)) hq rfl rfl rfl
  obtain rfl : busAnswer .main .rsrEcr (goto .main .qRRsr (accept .getErrorStatus s)) = v := busAnswer_of_cons hbus
  exact completesAs_of_doneAs ((execN_succ haccept 1).trans (execN_succ hread 0)) hq rfl rfl rfl rfl
    ⟨rfl, rfl, rfl, rfl, rfl, congrArg List.tail hbus, by and_intros <;> rfl⟩

end

/-- Settles O32: the acceptance, then at most one read and one write, then the completion. -/
theorem maskAndErrorOperationsRunTheirPseudocode : Obligations.MaskAndErrorOperationsRunTheirPseudocode := by
  intro s i o hidle hi h
  simp only [List.mem_cons, List.not_mem_nil, or_false] at hi
  obtain rfl | rfl | rfl | rfl := hi
  · exact mask_completesAs updatesMask_enable hidle h
  · exact mask_completesAs updatesMask_disable hidle h
  · cases h
    exact clearErrors_completesAs hidle
  · obtain ⟨v, bus, hbus, rfl⟩ := getErrorStatusSpec_eq_some h
    exact getErrorStatus_completesAs hidle hbus

/-! ### What an event leaves alone -/

/-- From `s` to `t` the main context reads or writes one register and moves on (40_common R126). -/
def accessesRegister (s t : State) : Prop :=
  ∃ r p, t = goto .main p (readReg .main r s) ∨ ∃ v, t = goto .main p (writeReg .main r v s)

theorem maskEvent_accesses {value : Cfg → Word → Word} {s t : State} (h : maskEvent value s = some t) :
    completesMain s t ∨ accessesRegister s t := by
  obtain hc | ⟨-, rfl⟩ | ⟨-, rfl⟩ := maskEvent_next h
  · exact .inl hc
  · exact .inr ⟨_, _, .inl rfl⟩
  · exact .inr ⟨_, _, .inr ⟨_, rfl⟩⟩

theorem clearErrorsEvent_accesses {s t : State} (h : clearErrorsEvent s = some t) :
    completesMain s t ∨ accessesRegister s t := by
  obtain hc | ⟨-, rfl⟩ := clearErrorsEvent_next h
  · exact .inl hc
  · exact .inr ⟨_, _, .inr ⟨_, rfl⟩⟩

theorem getErrorStatusEvent_accesses {s t : State} (h : getErrorStatusEvent s = some t) :
    completesMain s t ∨ accessesRegister s t := by
  obtain hc | ⟨-, rfl⟩ := getErrorStatusEvent_next h
  · exact .inl hc
  · exact .inr ⟨_, _, .inl rfl⟩

/-- The four ways an event of an operation with no operands goes: nothing happens, the operation is accepted, it
completes, or it makes one transaction. -/
def noOperandsEvent (i : Instr) (s t : State) : Prop :=
  t = s ∨ (s.m.busy = false ∧ ∃ p, t = goto .main p (accept i s)) ∨ completesMain s t ∨ accessesRegister s t

theorem mainEvent_noOperands {i : Instr} {start : State → State} {event : State → Option State} {s t : State}
    (hstart : ∃ p, start (accept i s) = goto .main p (accept i s))
    (hevent : event s = some t → completesMain s t ∨ accessesRegister s t)
    (h : mainEvent i start event s = .next t) : noOperandsEvent i s t := by
  obtain ⟨rfl, -⟩ | ⟨-, hm, rfl⟩ | ⟨-, -, -, he⟩ := mainEvent_next h
  · exact .inl rfl
  · exact .inr (.inl ⟨hm, hstart⟩)
  · exact .inr (.inr (hevent he))

theorem exec_noOperandsEvent {i : Instr} {s t : State}
    (hi : i ∈ [Instr.enableInterrupts, .disableInterrupts, .clearErrors, .getErrorStatus])
    (h : exec i s = .next t) : noOperandsEvent i s t := by
  simp only [List.mem_cons, List.not_mem_nil, or_false] at hi
  obtain rfl | rfl | rfl | rfl := hi
  · exact mainEvent_noOperands ⟨_, maskStart_eq _⟩ maskEvent_accesses h
  · exact mainEvent_noOperands ⟨_, maskStart_eq _⟩ maskEvent_accesses h
  · exact mainEvent_noOperands ⟨_, rfl⟩ clearErrorsEvent_accesses h
  · exact mainEvent_noOperands ⟨_, rfl⟩ getErrorStatusEvent_accesses h

/-- Settles O53: none of the four ways an event goes touches what the statement names. -/
theorem frameOfMaskAndErrorOperations : Obligations.FrameOfMaskAndErrorOperations := by
  intro i s t h hi
  obtain rfl | ⟨hm, p, rfl⟩ | ⟨e, hp, rfl⟩ | ⟨r, p, rfl | ⟨v, rfl⟩⟩ := exec_noOperandsEvent hi h
  · simp
  · simp [hm]
  · simp [hp]
  · simp
  · simp

end Sys2Proof.Machine
end

section
/-! SUPPORT. 45_interrupt_mask R191 with 20_memory R76: a handler run that finds the receive bit clear in `MIS`
(47_interrupt_handler R210), and why one dispatched after `DISABLE_INTERRUPTS` does. -/

namespace Sys2Proof.Machine

/-! ### A handler run that reads `MIS` and returns -/

/-- 60 R237: the dispatch. -/
theorem exec_dispatch {s : State} (hq : s.q.busy = false) : exec .irqHandler s = .next (enterHandler s) := by
  rw [exec, execIrqHandler, if_neg (Bool.eq_false_iff.1 hq)]

section
variable {s : State} (hq : s.q.busy = true)
include hq

theorem exec_of_handlerEvent {t : State} (he : handlerEvent s = some t) : exec .irqHandler s = .next t := by
  rw [exec, execIrqHandler, if_pos hq, he]

/-- `H_R_MIS` where the receive bit reads clear (47_interrupt_handler R210). -/
theorem exec_hRMis_of_clear (hp : s.q.phase = .hRMis) (hv : busAnswer .irq .mis s &&& s.cfg.intRx = 0#32) :
    exec .irqHandler s = .next (goto .irq .hDone (readReg .irq .mis s)) := by
  refine exec_of_handlerEvent hq ?_
  simp only [handlerEvent, hp]
  exact if_neg (Bool.eq_false_iff.1 (anySet_eq_false_iff.2 hv))

/-- `H_DONE`: the return (60 R238). -/
theorem exec_hDone (hp : s.q.phase = .hDone) : exec .irqHandler s = .next (leaveHandler s) :=
  exec_of_handlerEvent hq (by rw [handlerEvent, hp])

end

/-- A handler run whose `MIS` read has the receive bit clear is that read alone (R210). -/
theorem execN_handler_of_clear {u : State} (hq : u.q.busy = false)
    (hv : busAnswer .irq .mis (enterHandler u) &&& u.cfg.intRx = 0#32) :
    execN .irqHandler 3 u = .next (leaveHandler (goto .irq .hDone (readReg .irq .mis (enterHandler u)))) := by
  rw [execN_succ (exec_dispatch hq), execN_succ (exec_hRMis_of_clear (s := enterHandler u) rfl rfl hv),
    execN_succ (exec_hDone (s := goto .irq .hDone (readReg .irq .mis (enterHandler u))) rfl rfl)]
  rfl

/-! ### After `DISABLE_INTERRUPTS` -/

/-- R76: where the mask is the one `DISABLE_INTERRUPTS` writes, a read of `MIS` has the receive bit clear. -/
theorem misRead_and_intRx {k : Cfg} {r : Observed} {c : Ctx} {v x : Word} (hr : r.maskedIsRestricted k)
    (he : r.event = .read c (Cfg.addr k .mis) v) (hmask : r.before.imsc = imscDisabling k x) :
    v &&& k.intRx = 0#32 := by
  obtain ⟨hread, -⟩ := hr
  rw [hread c v he, hmask, BitVec.and_assoc, imscDisabling_and_intRx, BitVec.and_zero]

/-- Settles O56: the mask written is still in force at the read of `MIS`, so the handler returns after it. -/
theorem disabledHandlerOnlyReadsMis : Obligations.DisabledHandlerOnlyReadsMis := by
  intro s t u w r hq hm hr hp h hobserved huq hcfg hread hw hrestricted hstays
  cases h.symm.trans (exec_mWImsc hq hm updatesMask_disable hr hp)
  have hwrite : w.event = .write .main (Cfg.addr s.cfg .imsc) (imscDisabling s.cfg s.m.tmp) :=
    (List.singleton_inj.1 (List.append_cancel_left hobserved)).symm
  have hmask : w.after.imsc = imscDisabling s.cfg s.m.tmp := hw.2 _ _ hwrite
  have hclear := misRead_and_intRx hrestricted (hcfg ▸ hread) (hstays.trans hmask)
  exact ⟨_, execN_handler_of_clear huq (hcfg ▸ hclear), rfl, rfl, by rw [hread]; rfl⟩

end Sys2Proof.Machine
end

section
/-! SUPPORT. 46_error_status R202 with 20_memory R72, R73: an error query run whole from an idle block, whatever answers
its read, and what two of them in a row return where the peripheral behaves as the premises say. -/

namespace Sys2Proof.Machine

/-! ### One query, run whole -/

/-- From `s` to `t` an error query ran from its acceptance to its completion: it made the one event `e`, returned
`code`, and left the block idle. -/
def queryRan (s t : State) (e : Event) (code : ErrorStatus) : Prop :=
  bothIdle t ∧ t.cfg = s.cfg ∧ t.history = s.history ++ [e] ∧ t.result = some code.code

/-- An acceptance, an event that ends in `DONE(e)`, and the completion (40_common R120(4)). -/
theorem eq_complete_of_execN {i : Instr} {e : ErrorStatus} {s a w t : State} (haccept : exec i s = .next a)
    (hevent : exec i a = .next w) (hq : w.q.busy = false) (hm : w.m.busy = true) (hr : running w = some i)
    (hp : w.m.phase = .done e) (h : execN i 3 s = .next t) : t = complete e w := by
  rw [execN_succ haccept, execN_succ hevent, execN_succ (exec_of_done hq hm hr hp)] at h
  cases h
  rfl

section
variable {s t : State} (hidle : bothIdle s)
include hidle

/-- `GET_ERROR_STATUS` reads `RSR_ECR` once and returns what it decodes to (R201). -/
theorem getErrorStatus_queryRan (h : execN .getErrorStatus 3 s = .next t) :
    ∃ v, queryRan s t (.read .main (Cfg.addr s.cfg .rsrEcr) v) (decodeRxStatus s.cfg v) := by
  obtain ⟨hm, hq⟩ := hidle
  have haccept : exec .getErrorStatus s = .next (goto .main .qRRsr (accept .getErrorStatus s)) :=
    mainEvent_accept hq hm
  have hread := exec_qRRsr (s := goto .main .qRRsr (accept .getErrorStatus s)) hq rfl rfl rfl
  obtain rfl := eq_complete_of_execN haccept hread hq rfl rfl rfl h
  exact ⟨_, ⟨rfl, hq⟩, rfl, rfl, rfl⟩

/-- `CLEAR_ERRORS` writes `ALL_ONES` to `RSR_ECR` once and returns Ok (R200). -/
theorem clearErrors_queryRan (h : execN .clearErrors 3 s = .next t) :
    queryRan s t (.write .main (Cfg.addr s.cfg .rsrEcr) Word.allOnes) .ok := by
  obtain ⟨hm, hq⟩ := hidle
  have haccept : exec .clearErrors s = .next (goto .main .eWEcr (accept .clearErrors s)) := mainEvent_accept hq hm
  have hwrite := exec_eWEcr (s := goto .main .eWEcr (accept .clearErrors s)) hq rfl rfl rfl
  obtain rfl := eq_complete_of_execN haccept hwrite hq rfl rfl rfl h
  exact ⟨⟨rfl, hq⟩, rfl, rfl, rfl⟩

end

/-! ### Two in a row, observed -/

/-- Words with the same bits of `RSR_ANY` decode to the same code (40_common R122). -/
theorem decodeRxStatus_congr {k : Cfg} {v w : Word} (h : v &&& k.rsrAny = w &&& k.rsrAny) :
    decodeRxStatus k v = decodeRxStatus k w := by
  rw [← decodeRxStatus_and_rsrAny k v, h, decodeRxStatus_and_rsrAny]

/-- Where no bit of `RSR_ANY` is set the decode is Ok (R122). -/
theorem decodeRxStatus_of_clear {k : Cfg} {v : Word} (h : v &&& k.rsrAny = 0#32) : decodeRxStatus k v = .ok := by
  obtain ⟨-, -, -, -, hok, -⟩ := statusDecodePriority k v
  exact hok.2 (anySet_eq_false_iff.2 h)

/-- R72: the word read decodes as what is recorded, and what is recorded stays as it was. -/
theorem Observed.statusReadPure.decode {k : Cfg} {o : Observed} {c : Ctx} {v : Word} (ho : o.statusReadPure k)
    (he : o.event = .read c (Cfg.addr k .rsrEcr) v) :
    decodeRxStatus k v = decodeRxStatus k o.before.errors ∧ o.after = o.before := by
  obtain ⟨hshows, hpure⟩ := ho c v he
  exact ⟨decodeRxStatus_congr hshows, hpure⟩

/-- After another query has run, `GET_ERROR_STATUS` writes nothing and returns the decode of what is recorded before its
read (R72, R201). -/
theorem queryRan.then_getErrorStatus {s t u : State} {e : Event} {code : ErrorStatus} {o o' : Observed}
    (h : queryRan s t e code) (hsecond : execN .getErrorStatus 3 t = .next u) (hobserved : observedRun s u [o, o'])
    (hread : o'.statusReadPure s.cfg) :
    o.event = e ∧ o'.event.isWrite = false ∧ u.result = some (decodeRxStatus s.cfg o'.before.errors).code := by
  obtain ⟨hidle, hcfg, hhistory, -⟩ := h
  obtain ⟨v, -, -, hhistory', hresult⟩ := getErrorStatus_queryRan hidle hsecond
  rw [hcfg] at hhistory' hresult
  rw [observedRun, hhistory', hhistory, List.append_assoc] at hobserved
  obtain ⟨he, hobserved⟩ := List.cons.inj (List.append_cancel_left hobserved)
  have he' : o'.event = .read .main (Cfg.addr s.cfg .rsrEcr) v := (List.singleton_inj.1 hobserved).symm
  obtain ⟨hdecode, -⟩ := hread.decode he'
  exact ⟨he.symm, by rw [he', Event.isWrite], by rw [hresult, hdecode]⟩

/-- Settles O55: each query returns the decode of what is recorded before its read: twice the same where nothing changes
it, and Ok after the clear. -/
theorem errorQueriesUnderPremises : Obligations.ErrorQueriesUnderPremises := by
  intro s t u e1 e2 hidle hsecond hobserved hread2
  constructor
  · intro hfirst hread1 hstays
    obtain ⟨v, hran⟩ := getErrorStatus_queryRan hidle hfirst
    obtain ⟨he1, hnoWrite, hresult⟩ := hran.then_getErrorStatus hsecond hobserved hread2
    obtain ⟨hdecode, hpure⟩ := hread1.decode he1
    obtain ⟨-, -, -, hresult1⟩ := hran
    have hsame : u.result = t.result := by rw [hresult, hresult1, hstays, hpure, hdecode]
    exact ⟨hsame, by rw [he1, Event.isWrite], hnoWrite⟩
  · intro hclear hclears hstays
    obtain ⟨he1, -, hresult⟩ := (clearErrors_queryRan hidle hclear).then_getErrorStatus hsecond hobserved hread2
    rw [hresult, hstays, decodeRxStatus_of_clear (hclears _ he1)]

end Sys2Proof.Machine
end

section
/-! SUPPORT. 47_interrupt_handler R210, R213: the events of a handler run one by one (40_common R126), those of its own and
those in which its two inner sequences end, and the two polls with the budget `DEFAULT_TIMEOUT_MS`. -/

namespace Sys2Proof.Machine

/-! ### The ends of the inner sequences -/

section
variable {s : State} (hk : s.q.kont = some .handler)
include hk

/-- `TxEnd` for the handler: the code is discarded and the interrupt is cleared next (R210). -/
theorem txEnd_handler (code : ErrorStatus) : txEnd .irq code s = some (goto .irq .hWIcr s) := by
  rw [txEnd, hk]

/-- `RxEnd` for the handler with Ok: the byte goes to `q.char` and its echo begins. -/
theorem rxEnd_handler_ok :
    rxEnd .irq .ok s = some (goto .irq (if s.cfg.defaultTimeoutMs = 0#32 then .tRFlag else .tStart)
      { s with qChar := lowByte s.q.tmp }) := by
  rw [rxEnd, hk]
  exact congrArg some (txStart_eq .irq _)

/-- `RxEnd` for the handler with an error: nothing is echoed. -/
theorem rxEnd_handler_error {code : ErrorStatus} (hc : code ≠ .ok) :
    rxEnd .irq code s = some (goto .irq .hWIcr s) := by
  rw [rxEnd, hk]
  exact if_neg hc

/-- Past the deadline either sequence ends, and with it the handler's part that uses the data. -/
theorem handler_deadline_event (P : Poll) (hp : s.q.phase = P.deadline)
    (hd : deadlinePassed (clockAnswer .irq s) s.q.tStart s.cfg.defaultTimeoutMs = true) :
    P.event .irq s = some (goto .irq .hWIcr (sampleNow .irq s)) := by
  cases P with
  | tx => exact (sendEvent_of_late (c := .irq) hp hd).trans (txEnd_handler (s := sampleNow .irq s) hk _)
  | rx => exact (getEvent_of_late (c := .irq) hp hd).trans (rxEnd_handler_error (s := sampleNow .irq s) hk nofun)

end

/-! ### The events one by one -/

section
variable {s : State} (hq : s.q.busy = true)
include hq

/-- `H_R_MIS` where the receive bit reads set: the receive begins. -/
theorem exec_hRMis_of_set (hp : s.q.phase = .hRMis) (hv : busAnswer .irq .mis s &&& s.cfg.intRx ≠ 0#32) :
    exec .irqHandler s = .next (goto .irq (if s.cfg.defaultTimeoutMs = 0#32 then .gRFlag else .gStart)
      (setKont .irq .handler (readReg .irq .mis s))) := by
  have hset : anySet (busAnswer .irq .mis s) s.cfg.intRx = true := by simpa [anySet] using hv
  refine exec_of_handlerEvent hq ?_
  simp only [handlerEvent, hp]
  exact (if_pos hset).trans (congrArg some (rxStart_eq .irq _))

/-- `H_W_ICR`: the interrupt is cleared. -/
theorem exec_hWIcr (hp : s.q.phase = .hWIcr) :
    exec .irqHandler s = .next (goto .irq .hDone (writeReg .irq .icr s.cfg.intRx s)) :=
  exec_of_handlerEvent hq (by rw [handlerEvent, hp])

variable (hk : s.q.kont = some .handler)
include hk

/-- `G_R_RSR`: with no error recorded the byte is read next. -/
theorem exec_handler_gRRsr (hp : s.q.phase = .gRRsr) :
    exec .irqHandler s = .next (goto .irq
      (if decodeRxStatus s.cfg (busAnswer .irq .rsrEcr s) = .ok then .gRData else .hWIcr)
      (readReg .irq .rsrEcr s)) := by
  refine exec_of_poll (P := .rx) (c := .irq) ⟨hq, rfl⟩ (by rw [seq_irq, hp]; decide)
    ((getEvent_of_gRRsr (c := .irq) hp).trans ?_)
  split
  · rfl
  · rename_i hv
    exact rxEnd_handler_error (s := readReg .irq .rsrEcr s) hk hv

/-- `G_R_DATA`: the byte read goes to `q.char`. -/
theorem exec_handler_gRData (hp : s.q.phase = .gRData) :
    exec .irqHandler s = .next (goto .irq (if s.cfg.defaultTimeoutMs = 0#32 then .tRFlag else .tStart)
      { readReg .irq .data s with qChar := lowByte (busAnswer .irq .data s) }) :=
  exec_of_poll (P := .rx) (c := .irq) ⟨hq, rfl⟩ (by rw [seq_irq, hp]; decide)
    ((getEvent_of_gRData (c := .irq) hp).trans (rxEnd_handler_ok (s := readReg .irq .data s) hk))

/-- `T_R_RSR`: with no error recorded the byte is echoed next. -/
theorem exec_handler_tRRsr (hp : s.q.phase = .tRRsr) :
    exec .irqHandler s = .next (goto .irq
      (if busAnswer .irq .rsrEcr s &&& s.cfg.rsrAny = 0#32 then .tWData else .hWIcr) (readReg .irq .rsrEcr s)) := by
  split
  · rename_i hv
    exact exec_cleanStatus (c := .irq) ⟨hq, rfl⟩ hp hv
  · rename_i hv
    have herror : anySet (busAnswer .irq .rsrEcr s) s.cfg.rsrAny = true := by simpa [anySet] using hv
    exact exec_of_poll (P := .tx) (c := .irq) ⟨hq, rfl⟩ (by rw [seq_irq, hp]; decide)
      ((sendEvent_of_statusError (c := .irq) hp herror).trans (txEnd_handler (s := readReg .irq .rsrEcr s) hk _))

/-- `T_W_DATA`: the echo. -/
theorem exec_handler_tWData (hp : s.q.phase = .tWData) :
    exec .irqHandler s = .next (goto .irq .hWIcr (writeReg .irq .data (s.qChar.setWidth 32) s)) :=
  exec_of_poll (P := .tx) (c := .irq) ⟨hq, rfl⟩ (by rw [seq_irq, hp]; decide)
    ((sendEvent_of_tWData (c := .irq) hp).trans (txEnd_handler (s := writeReg .irq .data _ s) hk _))

/-- `G_NOW` and `T_NOW`: past `DEFAULT_TIMEOUT_MS` the interrupt is cleared next, else the flag is read again (R213). -/
theorem exec_handler_deadline (P : Poll) (hp : s.q.phase = P.deadline) :
    exec .irqHandler s = .next (goto .irq
      (if s.cfg.defaultTimeoutMs.toNat < (clockAnswer .irq s - s.q.tStart).toNat then .hWIcr else P.flag)
      (sampleNow .irq s)) := by
  split
  · rename_i hlt
    exact exec_of_poll (c := .irq) ⟨hq, rfl⟩ (by rw [seq_irq, hp]; exact P.deadline_mem)
      (handler_deadline_event hk P hp (decide_eq_true hlt))
  · rename_i hle
    exact exec_poll_deadline (P := P) (c := .irq) ⟨hq, rfl⟩ hp (decide_eq_false hle)

end

/-- Settles O25: the rows of the handler's own micro-states, and of those in which an inner sequence ends. -/
theorem handlerEventsFollowTable : Obligations.HandlerEventsFollowTable := by
  intro s hq
  refine ⟨?_, ?_, ?_, ?_, ?_, ?_, exec_hWIcr hq, exec_hDone hq⟩
  · rintro hp _ rfl hv
    exact exec_hRMis_of_clear hq hp hv
  · rintro hp _ rfl hv
    exact exec_hRMis_of_set hq hp hv
  · rintro hp hk _ rfl
    exact exec_handler_gRRsr hq hk hp
  · rintro hp hk _ rfl
    rw [exec_handler_gRData hq hk hp, lowByte_eq_setWidth, ← BitVec.add_zero s.cfg.uartBase]
    rfl
  · rintro hp hk _ rfl
    exact exec_handler_tRRsr hq hk hp
  · intro hp hk
    rw [exec_handler_tWData hq hk hp, ← BitVec.add_zero s.cfg.uartBase]
    rfl

/-- Settles O26: the rows of the two polls, on the irq context. -/
theorem handlerPollEventsFollowTable : Obligations.HandlerPollEventsFollowTable := by
  intro s hq hk
  have hran : ∀ P : Poll, P.ranBy .irq .irqHandler s := fun _ => ⟨hq, rfl⟩
  refine ⟨?_, ?_, ?_, ?_⟩
  · rintro (hp | hp) _ rfl <;> rw [hp]
    · exact exec_poll_start (hran .rx) hp
    · exact exec_poll_start (hran .tx) hp
  · rintro hp _ rfl
    exact exec_poll_flag (hran .rx) hp
  · rintro hp _ rfl
    exact exec_poll_flag (hran .tx) hp
  · rintro (hp | hp) _ rfl <;> rw [hp]
    · exact exec_handler_deadline hq hk .rx hp
    · exact exec_handler_deadline hq hk .tx hp

end Sys2Proof.Machine
end

section
/-! SUPPORT. 47_interrupt_handler R210: what an event of the handler leaves alone (60 R237), and that a handler run, from its
dispatch to its return, does what its pseudocode says. -/

namespace Sys2Proof.Machine

/-! ### Frames -/

/-- An event of `GetCharSeq` in the handler leaves `q.char` alone but in the read of `DATA`. -/
theorem getEvent_irq_qChar {s t : State} (h : getEvent .irq s = some t) (hp : s.q.phase ≠ .gRData) :
    t.qChar = s.qChar := by
  obtain ⟨-, rfl⟩ | ⟨-, rfl⟩ | ⟨-, -, rfl⟩ | ⟨-, -, he⟩ | ⟨-, -, rfl⟩ | ⟨-, hv, he⟩ | ⟨hdata, -⟩ := getEvent_next h
  · rfl
  · rfl
  · rfl
  · obtain ⟨-, rfl⟩ := rxEnd_irq he
    rfl
  · rfl
  · obtain ⟨-, rfl⟩ := rxEnd_irq he
    rw [if_neg hv]
    rfl
  · exact absurd hdata hp

/-- An event of a handler run leaves `q.char` alone but in the read of `DATA`. -/
theorem handlerEvent_qChar {s t : State} (h : handlerEvent s = some t) (hp : s.q.phase ≠ .gRData) :
    t.qChar = s.qChar := by
  obtain ⟨-, -, rfl⟩ | ⟨-, -, rfl⟩ | ⟨-, rfl⟩ | ⟨-, rfl⟩ | he | he := handlerEvent_next h
  · simp [rxStart_eq]
  · rfl
  · rfl
  · rfl
  · exact getEvent_irq_qChar he hp
  · obtain ⟨-, -, hqc, -⟩ := sendEvent_irq_keeps he
    exact hqc

/-- Settles O54: the dispatch writes `q.busy` and `q.phase` only, and every event of the run has the frame of the irq
context. -/
theorem frameOfIrqHandler : Obligations.FrameOfIrqHandler := by
  intro s t h
  obtain ⟨-, rfl⟩ | ⟨hq, he⟩ := execIrqHandler_next h
  · simp
  · obtain ⟨⟨hcfg, hdev, hop, hres, hress, hturns, hcount, hport⟩, hm, hl, hout, hhist⟩ := handlerEvent_keeps he
    refine ⟨hcfg, hm, hl, hres, hout, hress, hdev, hop, ?_, hturns, hcount, hport, ?_⟩
    · rintro (hp | hidle)
      · exact handlerEvent_qChar he hp
      · exact absurd (hq.symm.trans hidle) (by decide)
    · obtain hh | ⟨e, hh⟩ := hhist <;> simp [hh]

/-- Settles O42: by induction on the number of events, each with the frame of `IRQ_HANDLER`. -/
theorem handlerLeavesMainContext : Obligations.HandlerLeavesMainContext := by
  intro n
  induction n with
  | zero => rintro s _ ⟨⟩; simp
  | succ n ih =>
    intro s t h
    obtain ⟨u, he, hrest⟩ := exec_of_execN_succ h
    obtain ⟨hcfg, hm, hl, hres, hout, hress, hdev, hop, -, -, -, hport, -⟩ := frameOfIrqHandler s u he
    simpa only [hcfg, hm, hl, hres, hout, hress, hdev, hop, hport] using ih u t hrest

/-! ### Whole runs -/

/-- The handler has received and echoed as `o` says, and is about to clear the interrupt with the registers `x`. -/
def State.handled (x : Seq) (o : HandlerOut) (s : State) : State :=
  goto .irq .hWIcr ({ s with qChar := o.received.getD s.qChar }.polled .irq x o.events o.bus o.clock)

/-- The handler has received the byte in `x.tmp` with the events of `g`, and the poll of its echo begins. -/
def State.received (x : Seq) (g : SeqOut) (s : State) : State :=
  goto .irq (if s.cfg.defaultTimeoutMs = 0#32 then .tRFlag else .tStart)
    { s.polled .irq x g.events g.bus g.clock with qChar := lowByte x.tmp }

/-- An echo after the receive has done what both have. -/
theorem handled_of_received (x y : Seq) (g e : SeqOut) (s : State) :
    goto .irq .hWIcr ((s.received x g).polled .irq y e.events e.bus e.clock) =
      s.handled y ⟨some (lowByte x.tmp), g.events ++ e.events, e.bus, e.clock⟩ := by
  simp [State.received, State.handled, State.polled, State.setSeq, goto]

/-- How the pseudocode of the receive and the echo ends (R210): with the failure of the receive, or with the echo. -/
theorem echoSpec_eq_some {k : Cfg} {bus clock : List Word} {o : HandlerOut} (h : echoSpec k bus clock = some o) :
    ∃ g, getSeqSpec k .irq k.defaultTimeoutMs bus clock = some g
      ∧ ((g.code ≠ .ok ∧ o = ⟨none, g.events, g.bus, g.clock⟩)
        ∨ (g.code = .ok ∧ ∃ e, sendSeqSpec k .irq k.defaultTimeoutMs g.byte g.bus g.clock = some e
            ∧ o = ⟨some g.byte, g.events ++ e.events, e.bus, e.clock⟩)) := by
  unfold echoSpec at h
  split at h
  · cases h
  · rename_i g hg
    refine ⟨g, hg, ?_⟩
    split at h
    · rename_i hok
      obtain ⟨e, he, rfl⟩ := Option.map_eq_some_iff.1 h
      exact .inr ⟨hok, e, he, rfl⟩
    · rename_i herror
      cases h
      exact .inl ⟨herror, rfl⟩

/-- From the start of the receive, whatever codes the inner sequences return, the run leads to the interrupt clear with
the events and the byte of its pseudocode (R210). -/
theorem echoSpec_runs {s : State} {o : HandlerOut} (hq : s.q.busy = true) (hk : s.q.kont = some .handler)
    (hp : s.q.phase = if s.cfg.defaultTimeoutMs = 0#32 then .gRFlag else .gStart)
    (h : echoSpec s.cfg s.busAnswers s.clockAnswers = some o) :
    ∃ x : Seq, x.busy = true ∧ runs .irqHandler s (s.handled x o) := by
  obtain ⟨g, hg, hends⟩ := echoSpec_eq_some h
  obtain ⟨x, hbusy, hkont, hbyte, hreceived⟩ := getSeqSpec_runs (c := .irq) (i := .irqHandler) ⟨hq, rfl⟩ hp hg
  have hxq : x.busy = true := hbusy.trans hq
  have hxk : x.kont = some .handler := hkont.trans hk
  obtain ⟨herror, rfl⟩ | ⟨hok, e, he, rfl⟩ := hends
  · exact ⟨x, hxq, hreceived _ (rxEnd_handler_error hxk herror)⟩
  · rw [hok] at hreceived
    rw [← hbyte hok] at he ⊢
    have hreceive : runs .irqHandler s (s.received x g) := hreceived _ (rxEnd_handler_ok hxk)
    obtain ⟨y, hybusy, hykont, hechoed⟩ := sendSeqSpec_runs (c := .irq) (s := s.received x g) ⟨hxq, rfl⟩ rfl he
    have hecho := hechoed _ (txEnd_handler (hykont.trans hxk) _)
    rw [handled_of_received] at hecho
    exact ⟨y, hybusy.trans hxq, hreceive.trans hecho⟩

/-- How the pseudocode of the handler ends (R210): at once, or with the interrupt clear. -/
theorem handlerSpec_eq_some {k : Cfg} {bus clock : List Word} {o : HandlerOut} (h : handlerSpec k bus clock = some o) :
    ∃ v bus', bus = v :: bus'
      ∧ ((v &&& k.intRx = 0#32 ∧ o = ⟨none, [.read .irq (Cfg.addr k .mis) v], bus', clock⟩)
        ∨ (v &&& k.intRx ≠ 0#32 ∧ ∃ e, echoSpec k bus' clock = some e
            ∧ o = { e with events := .read .irq (Cfg.addr k .mis) v :: e.events
              ++ [.write .irq (Cfg.addr k .icr) k.intRx] })) := by
  unfold handlerSpec at h
  split at h
  · cases h
  · rename_i v bus'
    refine ⟨v, bus', rfl, ?_⟩
    simp only at h
    split at h
    · rename_i hset
      obtain ⟨e, he, rfl⟩ := Option.map_eq_some_iff.1 h
      exact .inr ⟨by simpa [anySet] using hset, e, he, rfl⟩
    · rename_i hclear
      cases h
      exact .inl ⟨anySet_eq_false_iff.1 (Bool.eq_false_iff.2 hclear), rfl⟩

/-- The handler has read `MIS` with the receive bit set, and its receive begins. -/
def State.receiveBegun (s : State) : State :=
  goto .irq (if s.cfg.defaultTimeoutMs = 0#32 then .gRFlag else .gStart)
    (setKont .irq .handler (readReg .irq .mis (enterHandler s)))

/-- After the receive and the echo come the interrupt clear and the return (R210, 60 R238). -/
theorem runs_return {s : State} (hq : s.q.busy = true) (hp : s.q.phase = .hWIcr) :
    runs .irqHandler s (leaveHandler (goto .irq .hDone (writeReg .irq .icr s.cfg.intRx s))) :=
  .head (exec_hWIcr hq hp) (.head (exec_hDone hq rfl) (.refl _ _))

/-- Settles O33: a dispatch, the read of `MIS`, and then the return at once, or the receive and the echo and then the
interrupt clear and the return. -/
theorem handlerRunsItsPseudocode : Obligations.HandlerRunsItsPseudocode := by
  intro s o hq h
  obtain ⟨v, bus, hbus, ⟨hv, rfl⟩ | ⟨hv, e, he, rfl⟩⟩ := handlerSpec_eq_some h
  all_goals obtain rfl : busAnswer .irq .mis (enterHandler s) = v := busAnswer_of_cons hbus
  · refine ⟨2, _, execN_handler_of_clear hq hv, ?_⟩
    simp [hbus]
  · have hset : exec .irqHandler (enterHandler s) = .next s.receiveBegun := exec_hRMis_of_set rfl rfl hv
    obtain ⟨x, hx, hecho⟩ := echoSpec_runs (s := s.receiveBegun) rfl rfl rfl (by simpa [State.receiveBegun, hbus] using he)
    obtain ⟨n, hn⟩ := runs.head hset (hecho.trans (runs_return hx rfl))
    refine ⟨n, _, (execN_succ (exec_dispatch hq) n).trans hn, ?_⟩
    simp [State.handled, State.receiveBegun, State.polled]

end Sys2Proof.Machine
end

section
/-! SUPPORT. 60_exceptions section 2 to section 4 (R234, R236, R237) and 40_common R120: what a step runs; and which codes an
operation reports (60 R225, R231). -/

namespace Sys2Proof.Machine

/-! ### What a step runs -/

theorem step_of_fetch_run {i : Instr} {s u : State} (h : fetch s = .run i u) : step s = exec i u := by
  rw [step, h]

/-- While the handler runs nothing else makes an event (60 R236). -/
theorem fetch_of_handler {s : State} (hq : s.q.busy = true) : fetch s = .run .irqHandler s := if_pos hq

/-- With no handler running, the turn can be a dispatch (60 R234). -/
theorem fetch_of_dispatch {s : State} (hq : s.q.busy = false) (ht : nextTurn s = .dispatch) :
    fetch s = .run .irqHandler (takeTurn s) := by
  simp [fetch, hq, ht]

/-- A busy main context goes on with the operation its latches hold (40_common R120). -/
theorem fetchMain_of_running {i : Instr} {s : State} (hm : s.m.busy = true) (hr : running s = some i) :
    fetchMain s = .run i s := by
  simp [fetchMain, hm, hr]

/-- With nothing offered an idle main context does nothing (70 R274). -/
theorem fetchMain_of_no_offer {s : State} (hm : s.m.busy = false) (hport : s.port = []) : fetchMain s = .idle s := by
  simp [fetchMain, hm, hport]

/-- Settles O7: the five ways the step goes. -/
theorem stepRunsDecodedInstruction : Obligations.StepRunsDecodedInstruction := by
  intro s
  refine ⟨fun hq => step_of_fetch_run (fetch_of_handler hq), fun hq ht => step_of_fetch_run (fetch_of_dispatch hq ht),
    fun hq ht hm i hr => step_of_fetch_run ?_, fun hq ht hm o rest i hport hd => step_of_fetch_run ?_,
    fun hq ht hm hport => ?_⟩
  · exact (fetch_of_main_turn hq ht).trans (fetchMain_of_running (by simpa using hm) (by simpa using hr))
  · exact (fetch_of_main_turn hq ht).trans (fetchMain_of_ok (by simpa using hm) (by simpa using hport) hd)
  · have hf : fetch s = .idle (takeTurn s) :=
      (fetch_of_main_turn hq ht).trans (fetchMain_of_no_offer (by simpa using hm) (by simpa using hport))
    rw [step, hf]

/-! ### The codes an operation reports -/

/-- The state a step runs its event in differs from the state before in the turns and the port alone. -/
theorem fetch_run_registers {i : Instr} {s u : State} (h : fetch s = .run i u) :
    u.m = s.m ∧ u.latch = s.latch ∧ u.results = s.results := by
  obtain ⟨-, -, rfl⟩ | ⟨-, -, -, rfl⟩ | ⟨-, -, -, -, rfl⟩ | ⟨-, -, -, o, rest, -, -, rfl⟩ := fetch_run h <;> simp

/-- Only a busy main context is in a micro-state other than `IDLE` (10_state R26). -/
theorem Inv.busy_of_phase {s : State} (hI : Inv s) (hp : s.m.phase ≠ .idle) : s.m.busy = true := by
  by_contra hm
  exact hp (hI.mainIdle (Bool.eq_false_iff.2 hm)).1

/-- Where the invariant holds, the code of a completion is one the matrix allows (60 R231). -/
theorem Inv.mayReturn_of_done {s : State} {e : ErrorStatus} (hI : Inv s) (hp : s.m.phase = .done e) :
    mayReturn s.latch.op e = true := by
  have hf : mainFitsAt (.done e) s := hp ▸ hI.mainBusy (hI.busy_of_phase (by rw [hp]; nofun))
  exact hf.1

/-- Settles O44: a step that adds to the result port completes an operation whose code the invariant allows. -/
theorem reportedCodesFollowMatrix : Obligations.ReportedCodesFollowMatrix := by
  intro s t hI h
  obtain ⟨i, u, hf, he⟩ | hf := step_next h
  · obtain ⟨hm, hl, hrs⟩ := fetch_run_registers hf
    obtain ⟨-, e, hp, rfl⟩ | ⟨-, -, hkeeps⟩ := exec_reportKeeps he
    · have hmay := hI.mayReturn_of_done (hm ▸ hp)
      exact .inr ⟨e, _, by rw [complete_results, hrs]; rfl, hmay, mayReturn_ne_busy hmay⟩
    · exact .inl (hkeeps.trans hrs)
  · obtain ⟨-, -, -, -, rfl⟩ := fetch_idle hf
    exact .inl (takeTurn_results s)

end Sys2Proof.Machine
end

section
/-! SUPPORT. 60_exceptions R223: an event of the main context ends in Timeout only where it is the deadline sample of a poll
and the time elapsed exceeds the budget (40_common R121). -/

namespace Sys2Proof.Machine

/-- From `s` to `t` the main context takes the deadline sample of a poll, and it exceeds the budget. -/
def samplesPastDeadline (s t : State) : Prop :=
  (s.m.phase = .tNow ∨ s.m.phase = .gNow) ∧ s.latch.arg.toNat < (clockAnswer .main s - s.m.tStart).toNat
    ∧ t.history = s.history ++ [.now .main (clockAnswer .main s)]

/-! ### The two sequences -/

/-- The end of a character ends the operation with the code of the character, or, with Ok, the next character's poll begins
(40_common R126, `TxEnd`). -/
theorem phase_of_txEnd {code : ErrorStatus} {s t : State} (h : txEnd .main code s = some t) :
    t.m.phase = .done code ∨ (code = .ok ∧ t.m.phase ∈ sendPhases) := by
  simp only [txEnd] at h
  split at h
  · cases h
    exact .inl rfl
  · obtain ⟨-, rfl⟩ | ⟨rfl, -, rfl⟩ | ⟨hok, c, -, rfl⟩ := stringNext_eq_some.1 h
    · exact .inl rfl
    · exact .inl rfl
    · exact .inr ⟨hok, pollStart_mem_sendPhases _⟩
  all_goals cases h

theorem code_of_txEnd {code e : ErrorStatus} {s t : State} (h : txEnd .main code s = some t)
    (hp : t.m.phase = .done e) : code = e := by
  obtain hd | ⟨-, hs⟩ := phase_of_txEnd h
  · exact Phase.done.inj (hd.symm.trans hp)
  · simp [hp, sendPhases] at hs

/-- A receive ends `GET_CHAR` with its code (`RxEnd`). -/
theorem code_of_rxEnd {code e : ErrorStatus} {s t : State} (h : rxEnd .main code s = some t)
    (hp : t.m.phase = .done e) : code = e := by
  obtain ⟨-, rfl⟩ := rxEnd_main h
  simpa using hp

theorem decodeRxStatus_ne_timeout (k : Cfg) (v : Word) : decodeRxStatus k v ≠ .timeout := by
  intro h
  simpa [h] using decodeRxStatus_mem k v

theorem sendEvent_timeout {s t : State} (h : sendEvent .main s = some t) (ht : t.m.phase = .done .timeout) :
    samplesPastDeadline s t := by
  obtain ⟨-, rfl⟩ | ⟨-, rfl⟩ | ⟨-, -, rfl⟩ | ⟨hp, hd, he⟩ | ⟨-, -, rfl⟩ | ⟨-, -, he⟩ | ⟨-, he⟩ := sendEvent_next h
  · cases ht
  · rw [goto_main_m] at ht
    split at ht
    · split at ht <;> cases ht
    · cases ht
  · cases ht
  · exact ⟨.inl hp, of_decide_eq_true hd, txEnd_history he⟩
  · cases ht
  · cases code_of_txEnd he ht
  · cases code_of_txEnd he ht

theorem getEvent_timeout {s t : State} (h : getEvent .main s = some t) (ht : t.m.phase = .done .timeout) :
    samplesPastDeadline s t := by
  obtain ⟨-, rfl⟩ | ⟨-, rfl⟩ | ⟨-, -, rfl⟩ | ⟨hp, hd, he⟩ | ⟨-, -, rfl⟩ | ⟨-, -, he⟩ | ⟨-, he⟩ := getEvent_next h
  · cases ht
  · rw [goto_main_m] at ht
    split at ht
    · split at ht <;> cases ht
    · cases ht
  · cases ht
  · exact ⟨.inr hp, of_decide_eq_true hd, rxEnd_history he⟩
  · cases ht
  · exact absurd (code_of_rxEnd he ht) (decodeRxStatus_ne_timeout _ _)
  · cases code_of_rxEnd he ht

/-! ### The operations -/

/-! No operation begins in `DONE(Timeout)` (40_common R126). -/

theorem initStart_ne_timeout (s : State) : (initStart s).m.phase ≠ .done .timeout := by
  rw [initStart_eq]
  split <;> nofun

theorem maskStart_ne_timeout (s : State) : (maskStart s).m.phase ≠ .done .timeout := by
  rw [maskStart_eq]
  split <;> nofun

theorem txStart_ne_timeout (s : State) : (txStart .main s).m.phase ≠ .done .timeout := by
  rw [txStart_eq]
  split <;> nofun

theorem sendCharStart_ne_timeout (s : State) : (sendCharStart s).m.phase ≠ .done .timeout := txStart_ne_timeout _

theorem getCharStart_ne_timeout (s : State) : (getCharStart s).m.phase ≠ .done .timeout := by
  rw [getCharStart, rxStart_eq]
  split
  · split <;> nofun
  · nofun

theorem sendStringStart_ne_timeout (s : State) : (sendStringStart s).m.phase ≠ .done .timeout := by
  unfold sendStringStart
  split
  · split
    · nofun
    · exact txStart_ne_timeout _
  · nofun

/-- A main operation turns to Timeout where an event of its run does. -/
theorem mainEvent_timeout {i : Instr} {start : State → State} {event : State → Option State} {s t : State}
    (hstart : (start (accept i s)).m.phase ≠ .done .timeout)
    (hevent : event s = some t → completesMain s t ∨ (t.m.phase = .done .timeout → samplesPastDeadline s t))
    (h : mainEvent i start event s = .next t) (ht : t.m.phase = .done .timeout) (hs : s.m.phase ≠ .done .timeout) :
    samplesPastDeadline s t := by
  obtain ⟨rfl, -⟩ | ⟨-, -, rfl⟩ | ⟨-, -, -, he⟩ := mainEvent_next h
  · exact absurd ht hs
  · exact absurd ht hstart
  · obtain ⟨e, -, rfl⟩ | hsample := hevent he
    · cases ht
    · exact hsample ht

theorem initEvent_timeout {s t : State} (h : initEvent s = some t) :
    completesMain s t ∨ (t.m.phase = .done .timeout → samplesPastDeadline s t) := by
  obtain hc | ⟨-, rfl⟩ | ⟨-, -, rfl⟩ | ⟨-, -, rfl⟩ | ⟨-, rfl⟩ | ⟨-, rfl⟩ | ⟨-, rfl⟩ | ⟨-, rfl⟩ | ⟨-, -, rfl⟩
    | ⟨-, -, rfl⟩ := initEvent_next h
  · exact .inl hc
  all_goals exact .inr nofun

theorem maskEvent_timeout {value : Cfg → Word → Word} {s t : State} (h : maskEvent value s = some t) :
    completesMain s t ∨ (t.m.phase = .done .timeout → samplesPastDeadline s t) := by
  obtain hc | ⟨-, rfl⟩ | ⟨-, rfl⟩ := maskEvent_next h
  · exact .inl hc
  all_goals exact .inr nofun

theorem clearErrorsEvent_timeout {s t : State} (h : clearErrorsEvent s = some t) :
    completesMain s t ∨ (t.m.phase = .done .timeout → samplesPastDeadline s t) := by
  obtain hc | ⟨-, rfl⟩ := clearErrorsEvent_next h
  · exact .inl hc
  · exact .inr nofun

theorem getErrorStatusEvent_timeout {s t : State} (h : getErrorStatusEvent s = some t) :
    completesMain s t ∨ (t.m.phase = .done .timeout → samplesPastDeadline s t) := by
  obtain hc | ⟨-, rfl⟩ := getErrorStatusEvent_next h
  · exact .inl hc
  · exact .inr fun ht => absurd (Phase.done.inj ht) (decodeRxStatus_ne_timeout _ _)

theorem sendCharEvent_timeout {s t : State} (h : sendCharEvent s = some t) :
    completesMain s t ∨ (t.m.phase = .done .timeout → samplesPastDeadline s t) :=
  (sendCharEvent_next h).imp_right sendEvent_timeout

theorem getCharEvent_timeout {s t : State} (h : getCharEvent s = some t) :
    completesMain s t ∨ (t.m.phase = .done .timeout → samplesPastDeadline s t) :=
  (getCharEvent_next h).imp_right getEvent_timeout

/-- One event of any operation that turns the main context to Timeout is a deadline sample past the budget. -/
theorem exec_timeout {i : Instr} {s t : State} (h : exec i s = .next t) (ht : t.m.phase = .done .timeout)
    (hs : s.m.phase ≠ .done .timeout) : samplesPastDeadline s t := by
  cases i with
  | init => exact mainEvent_timeout (initStart_ne_timeout _) initEvent_timeout h ht hs
  | sendChar => exact mainEvent_timeout (sendCharStart_ne_timeout _) sendCharEvent_timeout h ht hs
  | getChar => exact mainEvent_timeout (getCharStart_ne_timeout _) getCharEvent_timeout h ht hs
  | sendString => exact mainEvent_timeout (sendStringStart_ne_timeout _) sendCharEvent_timeout h ht hs
  | enableInterrupts => exact mainEvent_timeout (maskStart_ne_timeout _) maskEvent_timeout h ht hs
  | disableInterrupts => exact mainEvent_timeout (maskStart_ne_timeout _) maskEvent_timeout h ht hs
  | clearErrors => exact mainEvent_timeout (by rw [goto_main_m]; nofun) clearErrorsEvent_timeout h ht hs
  | getErrorStatus => exact mainEvent_timeout (by rw [goto_main_m]; nofun) getErrorStatusEvent_timeout h ht hs
  | irqHandler =>
    obtain ⟨-, hm, -⟩ := frameOfIrqHandler s t h
    exact absurd (hm ▸ ht) hs

/-- The deadline of a poll of the main context is sampled under a budget other than 0 only (40_common R121). -/
theorem Inv.budget_ne_zero {s : State} (hI : Inv s) (hp : s.m.phase = .tNow ∨ s.m.phase = .gNow) :
    s.latch.arg ≠ 0#32 := by
  have hf := hI.mainBusy (hI.busy_of_phase (by obtain hp | hp := hp <;> rw [hp] <;> nofun))
  unfold mainPhaseFits at hf
  obtain hp | hp := hp
  all_goals
    rw [hp] at hf
    exact hf.2

/-- Settles O46: the sample is the poll's, and the invariant gives the poll a budget. -/
theorem timeoutNeedsBudget : Obligations.TimeoutNeedsBudget := by
  intro i s t hI h ht hs
  obtain ⟨hp, hlt, hhistory⟩ := exec_timeout h ht hs
  exact ⟨hI.budget_ne_zero hp, hp, _, hhistory, hlt⟩

end Sys2Proof.Machine
end

section
/-! SUPPORT. 70_reset_and_hazards: the block after reset (R260), and that an error once recorded ends every later transfer at
its status read until it is cleared (R265, with 20_memory R72 and R74). -/

namespace Sys2Proof.Machine

/-! ### Reset -/

/-- Settles O9: these are the values `State.reset` is made of. -/
theorem resetLeavesBlockIdle : Obligations.ResetLeavesBlockIdle := by
  and_intros <;> rfl

/-- Settles O10: both contexts are idle, and nothing has been latched, completed or configured. -/
theorem resetMeetsInvariant : Obligations.ResetMeetsInvariant where
  mainIdle := fun _ => ⟨rfl, rfl⟩
  mainBusy := nofun
  irqIdle := fun _ => ⟨rfl, rfl⟩
  irqBusy := nofun
  nullString := fun _ => rfl
  index := Nat.le_refl 0
  configuring := iff_of_false nofun nofun
  resultIsLast := rfl
  resultNamed := nofun
  opCfgOfBaud := nofun

/-! ### A status read while an error is recorded -/

/-- The observed event, if it reads `RSR_ECR`, shows what is recorded (R72), and an error is recorded before it. -/
def Observed.showsError (k : Cfg) (r : Observed) : Prop :=
  r.statusReadPure k ∧ decodeRxStatus k r.before.errors ≠ .ok

/-- Where some recorded error is in `m`, the decode of what is recorded is an error (40_common R122). -/
theorem decode_ne_ok_of_recorded {k : Cfg} {e m : Word} (hm : m ≠ 0#32) (hany : m &&& k.rsrAny = m)
    (he : e &&& m = m) : decodeRxStatus k e ≠ .ok := by
  obtain ⟨-, -, -, -, hok, -⟩ := statusDecodePriority k e
  intro h
  have hclear : e &&& k.rsrAny = 0#32 := anySet_eq_false_iff.1 (hok.1 h)
  refine hm ?_
  calc m = e &&& (k.rsrAny &&& m) := by rw [BitVec.and_comm k.rsrAny, hany, he]
    _ = 0#32 := by rw [← BitVec.and_assoc, hclear, BitVec.zero_and]

/-- The status check of `SendCharSeq`, by what is read (42_send_char R160). -/
theorem sendEvent_of_tRRsr {c : Ctx} {s : State} (hp : (s.seq c).phase = .tRRsr) :
    sendEvent c s =
      if anySet (busAnswer c .rsrEcr s) s.cfg.rsrAny then txEnd c .hardwareError (readReg c .rsrEcr s)
      else some (goto c .tWData (readReg c .rsrEcr s)) := by
  have htmp : ((readReg c .rsrEcr s).seq c).tmp = busAnswer c .rsrEcr s := by cases c <;> rfl
  simp only [sendEvent, hp, htmp]

section
variable {c : Ctx} {s t : State} {r : Observed} (hr : observedRun s t [r]) (hshows : r.showsError s.cfg)
include hr hshows

/-- The answer to a status read decodes as what is recorded. -/
theorem decode_busAnswer_of_showsError (hread : t.history = (readReg c .rsrEcr s).history) :
    decodeRxStatus s.cfg (busAnswer c .rsrEcr s) = decodeRxStatus s.cfg r.before.errors := by
  obtain ⟨hpure, -⟩ := hshows
  rw [observedRun, hread, readReg_history] at hr
  obtain ⟨hdecode, -⟩ := hpure.decode (List.singleton_inj.1 (List.append_cancel_left hr)).symm
  exact hdecode

/-- The status read of `SendCharSeq` ends it with HardwareError (42_send_char R160). -/
theorem sendEvent_of_recordedError (hp : (s.seq c).phase = .tRRsr) (h : sendEvent c s = some t) :
    txEnd c .hardwareError (readReg c .rsrEcr s) = some t := by
  rw [sendEvent_of_tRRsr hp] at h
  split at h
  · exact h
  · rename_i hclean
    cases h
    have hdecode := decode_busAnswer_of_showsError (c := c) hr hshows (goto_history ..)
    rw [decodeRxStatus_of_clear (anySet_eq_false_iff.1 (Bool.eq_false_iff.2 hclean))] at hdecode
    obtain ⟨-, herror⟩ := hshows
    exact absurd hdecode.symm herror

/-- The status read of `GetCharSeq` ends it with the code decoded from what is recorded (43_get_char R170). -/
theorem getEvent_of_recordedError (hp : (s.seq c).phase = .gRRsr) (h : getEvent c s = some t) :
    rxEnd c (decodeRxStatus s.cfg r.before.errors) (readReg c .rsrEcr s) = some t := by
  rw [getEvent_of_gRRsr hp] at h
  split at h
  · rename_i hclean
    cases h
    have hdecode := decode_busAnswer_of_showsError (c := c) hr hshows (goto_history ..)
    obtain ⟨-, herror⟩ := hshows
    exact absurd (hdecode.symm.trans hclean) herror
  · rwa [decode_busAnswer_of_showsError (c := c) hr hshows (rxEnd_history h)] at h

end

/-! ### The step that makes it -/

theorem Poll.idle_notMem (P : Poll) : .idle ∉ P.phases := by cases P <;> decide

/-- The event an operation makes in a micro-state of a sequence is the sequence's. -/
theorem poll_event_of_exec {P : Poll} {c : Ctx} {i : Instr} {s t : State} (hran : P.ranBy c i s) (hf : phaseFits c s)
    (hp : (s.seq c).phase ∈ P.phases) (h : exec i s = .next t) : P.event c s = some t := by
  obtain ⟨u, hu⟩ : ∃ u, P.event c s = some u := by
    cases P with
    | tx => exact Option.isSome_iff_exists.1 (sendEvent_isSome hf hp)
    | rx => exact Option.isSome_iff_exists.1 (getEvent_isSome hf hp)
  cases h.symm.trans (exec_of_poll hran hp hu)
  exact hu

/-- The main context's operation runs the sequence it is in a micro-state of (40_common R126). -/
theorem latch_op_mem_ops {P : Poll} {s : State} (hf : phaseFits .main s) (hp : s.m.phase ∈ P.phases) :
    s.latch.op ∈ P.ops := by
  cases P with
  | tx =>
    obtain ⟨ho, -⟩ | ⟨ho, -⟩ : mainSending s := sending_of_phaseFits (c := .main) hf hp
    all_goals simp [Poll.ops, ho]
  | rx =>
    obtain ⟨ho, -⟩ : mainReceiving s := receiving_of_phaseFits (c := .main) hf hp
    simp [Poll.ops, ho]

/-- With no handler running, a step that adds to the history while the main context is in a micro-state of a sequence is an
event of that sequence, in the state in which the turn is taken. -/
theorem poll_event_of_step {P : Poll} {s t : State} (hI : Inv s) (hq : s.q.busy = false) (hp : s.m.phase ∈ P.phases)
    (h : step s = .next t) (hne : t.history ≠ s.history) : P.event .main (takeTurn s) = some t := by
  have hm : s.m.busy = true := hI.busy_of_phase fun hidle => P.idle_notMem (hidle ▸ hp)
  obtain ⟨i, u, hf, he⟩ | hf := step_next h
  · obtain ⟨hb, -⟩ | ⟨-, -, rfl, rfl⟩ | ⟨-, -, -, hr, rfl⟩ | ⟨-, -, hidle, -⟩ := fetch_run hf
    · cases hq.symm.trans hb
    · cases (exec_dispatch (by simpa using hq)).symm.trans he
      exact absurd (takeTurn_history s) hne
    · have hfits : phaseFits .main (takeTurn s) := hI.takeTurn.mainBusy (by simpa using hm)
      have hp' : (takeTurn s).m.phase ∈ P.phases := by simpa using hp
      obtain ⟨hop, -⟩ := running_latch hr
      exact poll_event_of_exec ⟨by simpa using hq, by simpa using hm, hr, hop ▸ latch_op_mem_ops hfits hp'⟩ hfits hp' he
    · cases hm.symm.trans hidle
  · obtain ⟨-, -, -, -, rfl⟩ := fetch_idle hf
    exact absurd (takeTurn_history s) hne

section
variable {s t : State} {r : Observed} (hI : Inv s) (h : step s = .next t) (hr : observedRun s t [r])
  (hshows : r.showsError s.cfg)
include hI h hr hshows

/-- `SEND_CHAR` and `SEND_STRING` end with HardwareError. -/
theorem step_tRRsr_of_recordedError (hq : s.q.busy = false) (hp : s.m.phase = .tRRsr) :
    t.m.phase = .done .hardwareError := by
  have he := poll_event_of_step (P := .tx) hI hq (by rw [hp]; decide) h (by rw [hr]; simp)
  have hend := sendEvent_of_recordedError (c := .main) (s := takeTurn s) (r := r) (by simpa [observedRun] using hr)
    (by simpa using hshows) (by simpa using hp) he
  exact (phase_of_txEnd hend).resolve_right nofun

/-- `GET_CHAR` ends with the code decoded from what is recorded. -/
theorem step_gRRsr_of_recordedError (hq : s.q.busy = false) (hp : s.m.phase = .gRRsr) :
    t.m.phase = .done (decodeRxStatus s.cfg r.before.errors) := by
  have he := poll_event_of_step (P := .rx) hI hq (by rw [hp]; decide) h (by rw [hr]; simp)
  have hend := getEvent_of_recordedError (c := .main) (s := takeTurn s) (r := r) (by simpa [observedRun] using hr)
    (by simpa using hshows) (by simpa using hp) he
  obtain ⟨-, rfl⟩ := rxEnd_main hend
  simp

/-- The handler's receive and echo go on to the interrupt clear (47_interrupt_handler R210). -/
theorem step_handler_of_recordedError (hq : s.q.busy = true) (hp : s.q.phase = .gRRsr ∨ s.q.phase = .tRRsr) :
    t.q.phase = .hWIcr := by
  have he : exec .irqHandler s = .next t := (step_of_fetch_run (fetch_of_handler hq)).symm.trans h
  have hfits : phaseFits .irq s := hI.irqBusy hq
  obtain hp | hp := hp
  · have hev := poll_event_of_exec (P := .rx) (c := .irq) ⟨hq, rfl⟩ hfits (by rw [seq_irq, hp]; decide) he
    obtain ⟨-, rfl⟩ := rxEnd_irq (getEvent_of_recordedError hr hshows hp hev)
    obtain ⟨-, herror⟩ := hshows
    rw [if_neg herror]
    rfl
  · have hev := poll_event_of_exec (P := .tx) (c := .irq) ⟨hq, rfl⟩ hfits (by rw [seq_irq, hp]; decide) he
    obtain ⟨-, rfl⟩ := txEnd_irq (sendEvent_of_recordedError hr hshows hp hev)
    rfl

end

/-- A run of steps keeps the invariant and the configuration. -/
theorem stepN_keeps_inv {n : Nat} {s u : State} (hI : Inv s) (h : stepN n s = .next u) : Inv u ∧ u.cfg = s.cfg :=
  stepN_keeps (P := fun v => Inv v ∧ v.cfg = s.cfg)
    (fun v w ⟨hv, hcfg⟩ hw => ⟨stepKeepsInvariant v w hv hw, (step_cfg hw).trans hcfg⟩) ⟨hI, rfl⟩ h

/-- Settles O58: R74 keeps the error recorded up to the last event, and there a status read shows it. -/
theorem recordedErrorEndsTransfers : Obligations.RecordedErrorEndsTransfers := by
  intro n s u t os r m hI hrun _ hstep hr hstay hnone hpure hm hany hfirst
  have hrecorded := errorsStayRecorded_last hany r os hstay hnone hfirst
  obtain ⟨hIu, hcfg⟩ := stepN_keeps_inv hI hrun
  have herror := decode_ne_ok_of_recorded hm hany hrecorded
  have hshows : r.showsError u.cfg := hcfg ▸ ⟨hpure, herror⟩
  exact ⟨hrecorded, step_tRRsr_of_recordedError hIu hstep hr hshows,
    fun hq hp => ⟨herror, hcfg ▸ step_gRRsr_of_recordedError hIu hstep hr hshows hq hp⟩,
    step_handler_of_recordedError hIu hstep hr hshows⟩

end Sys2Proof.Machine
end
